-- ==== Sys2Proof/Word.lean ====
section
/-! DEFINITION. The words of the block: bytes, 16-bit and 32-bit words, and 16-byte sequences. -/

namespace Sys2Proof

/-- A byte is 8 bits (R12). -/
abbrev Byte := BitVec 8

/-- A 16-bit field of the record (R262). -/
abbrev Half := BitVec 16

/-- A register of the host window, a command word, a TIME or RAND sample (R39, R140, R9). -/
abbrev Word := BitVec 32

/-- A sequence of exactly 16 bytes, byte 0 first: a key, an IV, one cipher block (R9: BLK, KEY_LEN, IV_LEN). -/
abbrev Block := Vector Byte 16

/-- `zeros(16)` of R14. -/
def zeroBlock : Block := Vector.replicate 16 0

end Sys2Proof
end

