-- ==== Sys2Proof/Config.lean ====
section
/-! DEFINITION. What is fixed for one block: the wire-format constants and the configuration parameters of R9, the
bounds of R10, and the three ports of R425. The block leaves no value undefined, so there is no free value here. -/

namespace Sys2Proof

/-- The three ports; a command word's format is known from its port alone (R140, R425). -/
inductive Port where
  | host
  | radio
  | network
deriving DecidableEq, Repr

/-- SLOT_CAP: 128 bytes (R9). -/
abbrev slotCap : Nat := 128

/-- BLK and IV_LEN: 16 bytes (R9). -/
abbrev blk : Nat := 16

/-- MIN_FRAME: 32 bytes (R9). -/
abbrev minFrame : Nat := 32

/-- REC_LEN: 11 bytes (R9). -/
abbrev recLen : Nat := 11

/-- PAD_MAX: 16 (R9). -/
abbrev padMax : Nat := 16

/-- CSUM_SPAN: 10 bytes (R9). -/
abbrev csumSpan : Nat := 10

/-- IRR_SENTINEL: 0xFFFF (R9). -/
abbrev irrSentinel : Nat := 0xFFFF

/-- JITTER_DIV: 10 (R9). -/
abbrev jitterDiv : Nat := 10

/-- The parameters a model takes as arguments (R9). They are plain numbers and a claim over every state is a claim
over every value of them. DESIGN CHOICE (logs 3 and 4), safe: they stand in State because `step` takes nothing else. -/
structure Config where
  /-- HOST_BASE: where the platform places the 4096-byte host window (R85, R120). -/
  hostBase : Nat
  /-- BACKOFF_FLOOR, in milliseconds. -/
  backoffFloor : Nat
  /-- GUARD_WINDOW, in milliseconds. -/
  guardWindow : Nat
  /-- BACKOFF_CEIL, in milliseconds. -/
  backoffCeil : Nat
deriving DecidableEq, Repr

/-- The bounds of R10: a model refuses a configuration outside them. -/
abbrev Config.Admissible (c : Config) : Prop :=
  1 ≤ c.backoffFloor ∧ c.backoffFloor ≤ c.backoffCeil ∧
    c.backoffCeil + c.backoffCeil / jitterDiv < 2 ^ 32 ∧ c.guardWindow < 2 ^ 32

/-- The defaults of R9. HOST_BASE has none: 0 is a DESIGN CHOICE (log 4). -/
def Config.default : Config :=
  { hostBase := 0, backoffFloor := 3000, guardWindow := 12000, backoffCeil := 300000 }

end Sys2Proof
end

