-- ==== Sys2Proof/Syntax.lean ====
section
/-! DEFINITION. The commands of the block: one constructor per row of spec/opcode_table.json. -/

namespace Sys2Proof

/-- The block's commands (R142, R143, R144). Operands are the unsigned integers of R145; which values a word can hold
is `Instr.wellFormed`. -/
inductive Instr where
  /-- NOP (R317). -/
  | nop
  /-- KEY_LOAD (R221). -/
  | keyLoad
  /-- AES_DECRYPT off, len (R230). -/
  | aesDecrypt (off len : Nat)
  /-- DECODE (R265). -/
  | decode
  /-- MBX_TAKE (R205). -/
  | mbxTake
  /-- LINK_TICK (R285). -/
  | linkTick
  /-- FORCE_RECONNECT (R293). -/
  | forceReconnect
  /-- PROCESS_FRAME (R311). -/
  | processFrame
  /-- RADIO_POST N (R201); the side band D, RSSI, SNR is on the radio port's lines. -/
  | radioPost (n : Nat)
  /-- LINK_EVENT UP or DOWN (R289). -/
  | linkEvent (up : Bool)
deriving DecidableEq, Repr

end Sys2Proof
end

