-- ==== Sys2Proof/WellFormed.lean ====
section
/-! DEFINITION. Which commands a word can hold: the operand ranges of R151. -/

namespace Sys2Proof

/-- The operands fit their fields: `0 <= off, len <= 255` and `0 <= N <= 65535` (R141, R143, R151). -/
def Instr.wellFormed : Instr → Bool
  | .nop => true
  | .keyLoad => true
  | .aesDecrypt off len => decide (off ≤ 255) && decide (len ≤ 255)
  | .decode => true
  | .mbxTake => true
  | .linkTick => true
  | .forceReconnect => true
  | .processFrame => true
  | .radioPost n => decide (n ≤ 65535)
  | .linkEvent _ => true

end Sys2Proof
end

