-- ==== Sys2Proof/Decode.lean ====
section
/-! DEFINITION. The decoder, total on every 32-bit word of every port and rejecting by name, and the encoder
(30_encoding R140 to R151). -/

namespace Sys2Proof

/-! Fields -/

/-- `w[hi:lo]` of R12, as an unsigned number. -/
def bits (w : Word) (hi lo : Nat) : Nat := w.toNat / 2 ^ lo % 2 ^ (hi - lo + 1)

/-- OP, bits [7:0] of every format (R141, R143, R144). -/
def fieldOP (w : Word) : Nat := bits w 7 0

/-- A, bits [15:8] of format H (R141). -/
def fieldA (w : Word) : Nat := bits w 15 8

/-- B, bits [23:16] of format H (R141). -/
def fieldB (w : Word) : Nat := bits w 23 16

/-- N, bits [23:8] of format R (R143). -/
def fieldN (w : Word) : Nat := bits w 23 8

/-- UP, bit 8 of format N (R144). -/
def fieldUP (w : Word) : Bool := decide (bits w 8 8 = 1)

/-- RSV, bits [31:24] of formats H and R (R141, R143). -/
def fieldRSV (w : Word) : Nat := bits w 31 24

/-- RSV, bits [31:9] of format N (R144). -/
def fieldNetRSV (w : Word) : Nat := bits w 31 9

/-! Rejections -/

/-- Why a word is no command of the port it arrived on (R146 to R149, R426). -/
inductive Reject where
  /-- An opcode of the port's class that is reserved, or one of the reserved classes 0x30 to 0xFF (R146). -/
  | reservedOpcode
  /-- An opcode of another port's class (R426). -/
  | otherPortOpcode
  /-- The opcode is assigned and a bit of RSV is 1 (R147, R148, R149). -/
  | reservedBits
  /-- The opcode takes no operand and A or B is not 0 (R147). -/
  | operandBits
deriving DecidableEq, Repr

/-- The opcode classes of R146; 0x30 to 0xFF belong to no port. -/
def portOfOpcode (op : Nat) : Option Port :=
  if op ≤ 0x0F then some .host
  else if op ≤ 0x1F then some .radio
  else if op ≤ 0x2F then some .network
  else none

/-- The name of the rejection of an opcode that port `p` does not have. -/
def rejectOpcode (p : Port) (op : Nat) : Reject :=
  if portOfOpcode op = none ∨ portOfOpcode op = some p then .reservedOpcode else .otherPortOpcode

/-! Decoding, one decoder per format -/

/-- Format H: legal when OP is 0x00 to 0x07, RSV = 0, and A = B = 0 unless OP = 0x02 (R142, R147). -/
def decodeHost (w : Word) : Except Reject Instr :=
  if fieldOP w > 0x07 then .error (rejectOpcode .host (fieldOP w))
  else if fieldRSV w ≠ 0 then .error .reservedBits
  else if fieldOP w = 0x02 then .ok (.aesDecrypt (fieldA w) (fieldB w))
  else if fieldA w ≠ 0 ∨ fieldB w ≠ 0 then .error .operandBits
  else if fieldOP w = 0x00 then .ok .nop
  else if fieldOP w = 0x01 then .ok .keyLoad
  else if fieldOP w = 0x03 then .ok .decode
  else if fieldOP w = 0x04 then .ok .mbxTake
  else if fieldOP w = 0x05 then .ok .linkTick
  else if fieldOP w = 0x06 then .ok .forceReconnect
  else .ok .processFrame

/-- Format R: legal when OP = 0x10 and RSV = 0 (R143, R148). -/
def decodeRadio (w : Word) : Except Reject Instr :=
  if fieldOP w ≠ 0x10 then .error (rejectOpcode .radio (fieldOP w))
  else if fieldRSV w ≠ 0 then .error .reservedBits
  else .ok (.radioPost (fieldN w))

/-- Format N: legal when OP = 0x20 and bits [31:9] = 0 (R144, R149). -/
def decodeNetwork (w : Word) : Except Reject Instr :=
  if fieldOP w ≠ 0x20 then .error (rejectOpcode .network (fieldOP w))
  else if fieldNetRSV w ≠ 0 then .error .reservedBits
  else .ok (.linkEvent (fieldUP w))

/-- The decoder: the format is that of the port the word arrived on, never the word's bits (R140). -/
def decode (p : Port) (w : Word) : Except Reject Instr :=
  match p with
  | .host => decodeHost w
  | .radio => decodeRadio w
  | .network => decodeNetwork w

/-! Encoding -/

/-- The one port a command can be issued on (R425). -/
def Instr.port : Instr → Port
  | .nop => .host
  | .keyLoad => .host
  | .aesDecrypt _ _ => .host
  | .decode => .host
  | .mbxTake => .host
  | .linkTick => .host
  | .forceReconnect => .host
  | .processFrame => .host
  | .radioPost _ => .radio
  | .linkEvent _ => .network

/-- The encoding formulas of R151. -/
def encode : Instr → Word
  | .nop => 0x00#32
  | .keyLoad => 0x01#32
  | .aesDecrypt off len => 0x02#32 ||| (BitVec.ofNat 32 off <<< 8) ||| (BitVec.ofNat 32 len <<< 16)
  | .decode => 0x03#32
  | .mbxTake => 0x04#32
  | .linkTick => 0x05#32
  | .forceReconnect => 0x06#32
  | .processFrame => 0x07#32
  | .radioPost n => 0x10#32 ||| (BitVec.ofNat 32 n <<< 8)
  | .linkEvent true => 0x120#32
  | .linkEvent false => 0x020#32

/-- The row of spec/opcode_table.json a command belongs to: its match and its mask. -/
def tableRow : Instr → Word × Word
  | .nop => (0x00000000#32, 0xFFFFFFFF#32)
  | .keyLoad => (0x00000001#32, 0xFFFFFFFF#32)
  | .aesDecrypt _ _ => (0x00000002#32, 0xFF0000FF#32)
  | .decode => (0x00000003#32, 0xFFFFFFFF#32)
  | .mbxTake => (0x00000004#32, 0xFFFFFFFF#32)
  | .linkTick => (0x00000005#32, 0xFFFFFFFF#32)
  | .forceReconnect => (0x00000006#32, 0xFFFFFFFF#32)
  | .processFrame => (0x00000007#32, 0xFFFFFFFF#32)
  | .radioPost _ => (0x00000010#32, 0xFF0000FF#32)
  | .linkEvent _ => (0x00000020#32, 0xFFFFFEFF#32)

/-! A word numbered as the opcode table numbers it -/

/-- The word of an instruction whose low `nbits` bits are those of `w`, every bit above them 0. -/
def tableWord (nbits w : Nat) : Word := BitVec.ofNat 32 (w % 2 ^ nbits)

/-- The port a bare word is shown to: that of its opcode's class, the host port for the reserved classes. The table
gives each row its port beside its bits, and R146 puts the ports' opcodes in separate classes (log 9, DESIGN CHOICE). -/
def tablePort (w : Word) : Port := (portOfOpcode (fieldOP w)).getD .host

/-- What the decoder reads from a word of the opcode table. -/
def decodeTableWord (nbits w : Nat) : Option Instr :=
  match decode (tablePort (tableWord nbits w)) (tableWord nbits w) with
  | .ok i => some i
  | .error _ => none

end Sys2Proof
end

