-- ==== Sys2Proof/Machine/State.lean ====
section
/-! DEFINITION. The state of the block (10_state.md), the agents that drive it, its reset, and the reasons a step can
stop. -/

namespace Sys2Proof.Machine

/-! Named values of the STATUS fields -/

/-- The result codes 0 to 10 of R400; 11 to 15 are never written (R43). -/
inductive ResultCode where
  | ok
  | empty
  | frameShort
  | frameAlign
  | invalidLength
  | cipherFail
  | invalidPadding
  | sizeMismatch
  | checksumMismatch
  | keyLocked
  | illegalCmd
deriving DecidableEq, Repr

/-- STATUS.LINK (R46, R280). -/
inductive LinkState where
  | disconnected
  | connecting
  | connected
deriving DecidableEq, Repr

/-- STATUS.ATTEMPT: what the most recent LINK_TICK issued (R48). -/
inductive Attempt where
  | noAttempt
  | beginAttempt
  | reconnectAttempt
deriving DecidableEq, Repr

/-- An event toward the network collaborator (R78). -/
inductive NetEvent where
  | beginConnect
  | reconnect
deriving DecidableEq, Repr

/-! The host window -/

/-- The mapped registers of the host window (R39); `k` numbers the words of KEY0..3, IV0..3 and of the two buffers. -/
inductive Reg where
  | id
  | cmd
  | status
  | lastNow
  | key (k : Fin 4)
  | iv (k : Fin 4)
  | frameLen
  | frameRssi
  | frameSnr
  | ptLen
  | rdIrr
  | rdBatt
  | rdTemp
  | rdTs
  | rdCsum
  | linkNext
  | linkBackoff
  | linkJitter
  | decCount
  | frameBuf (k : Fin 32)
  | ptBuf (k : Fin 32)
deriving DecidableEq, Repr

/-- A byte memory: the cells that do not hold 0, addresses strictly rising. An unlisted byte reads 0, the value reset
gives every byte of every buffer (R14, R90; log 7). -/
abbrev Memory := List Host.Cell

/-! The agents (R430) -/

/-- One host bus transaction: `MemRead(addr, width)` or `MemWrite(addr, width, data)` (R15, R100). -/
inductive BusAccess where
  | read (addr width : Nat)
  | write (addr width : Nat) (data : Word)
deriving DecidableEq, Repr

/-- What the radio puts on its port: a command word and the side band D, RSSI, SNR (R143). `data` is the first 128
bytes on the data lines; the block drops the rest unread (R202; log 5). -/
structure RadioRequest where
  word : Word
  data : Vector Byte 128
  rssi : Word
  snr : Word
deriving DecidableEq, Repr

/-- One choice of the arbiter: the port served next, with the values on TIME and RAND at that moment (R17, R111). -/
structure Turn where
  port : Port
  time : Word
  rand : Word
deriving DecidableEq, Repr

/-- The environment: the values on the block's inputs, what each agent has still to issue in its own order, the
arbiter's order, and the data the host has read. None of it is state of the block (R32; logs 1, 2, 5, 8, 10). -/
structure Env where
  /-- The TIME input (R281). -/
  time : Word
  /-- The RAND input (R282). -/
  rand : Word
  /-- The radio port's data lines (R143). -/
  radioData : Vector Byte 128
  /-- The radio port's RSSI value (R143). -/
  radioRssi : Word
  /-- The radio port's SNR value (R143). -/
  radioSnr : Word
  /-- The host's bus transactions still to come, in program order. -/
  host : List BusAccess
  /-- The radio's words still to come. -/
  radio : List RadioRequest
  /-- The network collaborator's words still to come. -/
  network : List Word
  /-- The arbiter's order of the turns still to come (R111). -/
  schedule : List Turn
  /-- The data of the host's reads so far, oldest first (R102). -/
  hostReads : List Word
deriving DecidableEq, Repr

/-- The whole machine. The fields after `cfg` and before `env` are the state elements of 10_state.md, one for one. -/
structure State where
  /-- The parameters of R9; no step changes them. -/
  cfg : Config
  /-- STATUS.RESULT (R43). -/
  result : ResultCode
  /-- STATUS.KEY_VALID (R44). -/
  keyValid : Bool
  /-- STATUS.MBX_READY (R45). -/
  mbxReady : Bool
  /-- STATUS.LINK (R46). -/
  link : LinkState
  /-- STATUS.HAD_BEGUN (R47). -/
  hadBegun : Bool
  /-- STATUS.ATTEMPT (R48). -/
  attempt : Attempt
  /-- STATUS.PUBLISH (R49). -/
  publish : Bool
  /-- STATUS.READING_VALID (R50). -/
  readingValid : Bool
  /-- STATUS.SENSOR_ERR (R51). -/
  sensorErr : Bool
  /-- LAST_NOW (R52). -/
  lastNow : Word
  /-- KST, the staging bytes behind KEY0 to KEY3 (R53, R77). -/
  kst : Block
  /-- IVR, the bytes behind IV0 to IV3 (R54). -/
  ivr : Block
  /-- FRAME_LEN (R55). -/
  frameLen : Byte
  /-- FRAME_RSSI (R56). -/
  frameRssi : Word
  /-- FRAME_SNR (R57). -/
  frameSnr : Word
  /-- PT_LEN (R58). -/
  ptLen : Byte
  /-- RD_IRR (R59). -/
  rdIrr : Half
  /-- RD_BATT (R60). -/
  rdBatt : Half
  /-- RD_TEMP, sign-extended (R61). -/
  rdTemp : Word
  /-- RD_TS (R62). -/
  rdTs : Word
  /-- RD_CSUM (R63). -/
  rdCsum : Byte
  /-- LINK_NEXT (R64). -/
  linkNext : Word
  /-- LINK_BACKOFF; 0 is "unset" (R65). -/
  linkBackoff : Word
  /-- LINK_JITTER (R66). -/
  linkJitter : Word
  /-- DEC_COUNT (R67). -/
  decCount : Word
  /-- FRAME_BUF and PT_BUF, keyed by window offset 0x100 to 0x1FF (R70, R71). -/
  mem : Memory
  /-- SLOT, keyed by byte index 0 to 127 (R75). -/
  slot : Memory
  /-- SLOT_LEN (R75). -/
  slotLen : Byte
  /-- SLOT_RSSI (R75). -/
  slotRssi : Word
  /-- SLOT_SNR (R75). -/
  slotSnr : Word
  /-- KEY (R76). -/
  key : Block
  /-- NET_OUT, oldest event first (R78). -/
  netOut : List NetEvent
  /-- The agents and the inputs. -/
  env : Env
deriving DecidableEq, Repr

/-- Why a step stops with a fault. -/
inductive Fault where
  /-- Raised by a host access of a width other than 4, at an offset that is no multiple of 4, or at an unmapped offset
  (R101, R105, R106). It carries the access and the read data 0 the host sees. Safe: the spec has a model record it as
  a fault of the host's run (R402, 93 I11), where the block itself would go on unchanged. -/
  | busError (addr width : Nat) (readData : Word)
  /-- Raised by a host access at an address outside the host window, which reaches no element of the block
  (R85, R100; log 4). Safe: the model stops where the platform goes on elsewhere. -/
  | outsideWindow (addr : Nat)
deriving DecidableEq, Repr

/-- Why a step is refused. -/
inductive Refusal where
  /-- Raised by an arm of `exec` whose command has no meaning yet; no arm raises it. Safe. -/
  | notModelled (mnemonic : String)
  /-- Raised by `step` when the configuration is outside the bounds of R10 ("A model refuses a configuration outside
  these bounds"; 93 I2). Safe. -/
  | configurationOutOfBounds
deriving DecidableEq, Repr

/-- The environment at reset: nothing to issue, nothing scheduled, every input line 0. DESIGN CHOICE (log 8), unsafe:
the spec gives the environment no reset value. -/
def Env.reset : Env :=
  { time := 0, rand := 0
    radioData := Vector.replicate 128 0, radioRssi := 0, radioSnr := 0
    host := [], radio := [], network := [], schedule := [], hostReads := [] }

/-- The block right after power-on reset: every state element at the value of R90 (R450). -/
def State.reset : State :=
  { cfg := Config.default
    result := .ok, keyValid := false, mbxReady := false, link := .disconnected, hadBegun := false
    attempt := .noAttempt, publish := false, readingValid := false, sensorErr := false
    lastNow := 0, kst := zeroBlock, ivr := zeroBlock
    frameLen := 0, frameRssi := 0, frameSnr := 0, ptLen := 0
    rdIrr := 0, rdBatt := 0, rdTemp := 0, rdTs := 0, rdCsum := 0
    linkNext := 0, linkBackoff := 0, linkJitter := 0, decCount := 0
    mem := [], slot := [], slotLen := 0, slotRssi := 0, slotSnr := 0
    key := zeroBlock, netOut := [], env := Env.reset }

end Sys2Proof.Machine
end

