-- ==== Sys2Proof/Machine/Operands.lean ====
section
/-! DEFINITION. Operand forms: byte order and sign extension (00_scope R12, R18; 20_memory R107), byte sequences, and
the map from a host address to a register of the host window (10_state R39, R85). -/

namespace Sys2Proof.Machine

/-! Byte order -/

/-- `le16(B, i)` (R18). -/
def le16 (B : List Byte) (i : Nat) : Nat := (B.getD i 0).toNat + 256 * (B.getD (i + 1) 0).toNat

/-- `le32(B, i)` (R18). -/
def le32 (B : List Byte) (i : Nat) : Nat :=
  (B.getD i 0).toNat + 2 ^ 8 * (B.getD (i + 1) 0).toNat + 2 ^ 16 * (B.getD (i + 2) 0).toNat +
    2 ^ 24 * (B.getD (i + 3) 0).toNat

/-- `sum8(B, i, n)`: the 8-bit additive checksum (R18, R261). -/
def sum8 (B : List Byte) (i n : Nat) : Nat :=
  ((List.range n).map fun j => (B.getD (i + j) 0).toNat).sum % 256

/-- `sext_32` of a 16-bit value (R12). -/
def sext32 (v : Half) : Word := v.signExtend 32

/-- `zext_32` (R12). -/
def zext32 {n : Nat} (v : BitVec n) : Word := v.setWidth 32

/-- Lane `j` of a word, bits `[8j+7:8j]` (R102, R107). -/
def lane (v : Word) (j : Nat) : Byte := v.extractLsb' (8 * j) 8

/-- The four lanes of a word, lane 0 first. -/
def lanes (v : Word) : List Byte := [lane v 0, lane v 1, lane v 2, lane v 3]

/-- The word whose lanes are four bytes, lane 0 first (R107). -/
def wordOfLanes (B : List Byte) : Word := BitVec.ofNat 32 (le32 B 0)

/-! Byte sequences -/

/-- The 16-byte sequence `B[0..16)`. -/
def blockOfBytes (B : List Byte) : Block := Vector.ofFn fun i : Fin 16 => B.getD i.val 0

/-- Word `k` of a 16-byte register: bytes `4k` to `4k+3` (R54). -/
def blockWord (b : Block) (k : Fin 4) : Word := wordOfLanes ((b.toList.drop (4 * k.val)).take 4)

/-- The 16-byte register after a write of `v` to its word `k`: bytes `4k+j <- v[8j+7:8j]` (R53, R54). -/
def setBlockWord (b : Block) (k : Fin 4) (v : Word) : Block :=
  Vector.ofFn fun i : Fin 16 => if i.val / 4 = k.val then lane v (i.val % 4) else b[i]

/-- `a xor b` on 16-byte sequences (R13). -/
def xorBlock (a b : Block) : Block := Vector.ofFn fun i : Fin 16 => a[i] ^^^ b[i]

/-- The first `n` bytes of `B` followed by zeros, 128 bytes in all: `(i < n) ? B[i] : 0` for `i = 0..127`
(R201, R235). -/
def fill128 (B : List Byte) (n : Nat) : List Byte :=
  (List.range slotCap).map fun i => if i < n then B.getD i 0 else 0

/-- `min(v, 128)`, what FRAME_LEN and PT_LEN store (R55, R58). -/
def clampLen (v : Word) : Byte := BitVec.ofNat 8 (min v.toNat slotCap)

/-! The host window -/

/-- Window offset of FRAME_BUF (R70). -/
abbrev frameBase : Nat := 0x100

/-- Window offset of PT_BUF (R71). -/
abbrev ptBase : Nat := 0x180

/-- The offset of a register in the host window (R39). -/
def Reg.offset : Reg → Nat
  | .id => 0x000
  | .cmd => 0x004
  | .status => 0x008
  | .lastNow => 0x00C
  | .key k => 0x010 + 4 * k.val
  | .iv k => 0x020 + 4 * k.val
  | .frameLen => 0x030
  | .frameRssi => 0x034
  | .frameSnr => 0x038
  | .ptLen => 0x03C
  | .rdIrr => 0x040
  | .rdBatt => 0x044
  | .rdTemp => 0x048
  | .rdTs => 0x04C
  | .rdCsum => 0x050
  | .linkNext => 0x054
  | .linkBackoff => 0x058
  | .linkJitter => 0x05C
  | .decCount => 0x060
  | .frameBuf k => frameBase + 4 * k.val
  | .ptBuf k => ptBase + 4 * k.val

/-- Every mapped register, in the order of R39. -/
def allRegs : List Reg :=
  [.id, .cmd, .status, .lastNow] ++ (List.finRange 4).map .key ++ (List.finRange 4).map .iv ++
    [.frameLen, .frameRssi, .frameSnr, .ptLen, .rdIrr, .rdBatt, .rdTemp, .rdTs, .rdCsum] ++
    [.linkNext, .linkBackoff, .linkJitter, .decCount] ++
    (List.finRange 32).map .frameBuf ++ (List.finRange 32).map .ptBuf

/-- The register at a window offset; none where R39 maps nothing (R106). -/
def regAt (off : Nat) : Option Reg := allRegs.find? fun r => r.offset == off

/-- The size of the host window: 12 bits of byte offset (R85). -/
abbrev windowSize : Nat := 0x1000

/-- The register a transaction of width `width` at address `addr` reaches, or the fault it raises: outside the window
(log 4); a width other than 4, an offset that is no multiple of 4 or is unmapped is a bus error with read data 0
(R101, R105, R106). -/
def busTarget (cfg : Config) (addr width : Nat) : Except Fault Reg :=
  if addr < cfg.hostBase ∨ cfg.hostBase + windowSize ≤ addr then .error (.outsideWindow addr)
  else if width ≠ 4 ∨ (addr - cfg.hostBase) % 4 ≠ 0 then .error (.busError addr width 0)
  else match regAt (addr - cfg.hostBase) with
    | some r => .ok r
    | none => .error (.busError addr width 0)

end Sys2Proof.Machine
end

