-- ==== Sys2Proof/Machine/Aes.lean ====
section
/-! DEFINITION. The AES-128 inverse cipher, as 41_cipher.md section 4 gives it (R250 to R259). The 4 by 4 state
`s[r][c]` is held as its block: `s[r][c]` is byte `r + 4c` (R250), so load and store are the identity. -/

namespace Sys2Proof.Machine

/-- A four-byte word of the key expansion (R254). -/
abbrev KeyWord := Vector Byte 4

/-! Arithmetic in GF(2^8) -/

/-- Multiplication by 0x02 (R251). -/
def xtime (a : Byte) : Byte := (a <<< 1) ^^^ (if a.getLsbD 7 then 0x1B#8 else 0x00#8)

/-- `xtime^k(a)` (R251). -/
def xtimes : Nat → Byte → Byte
  | 0, a => a
  | k + 1, a => xtime (xtimes k a)

/-- `a • b`: the exclusive or of `xtime^k(a)` over the set bits `k` of `b` (R251). -/
def gmul (a b : Byte) : Byte :=
  (List.range 8).foldl (fun acc k => if b.getLsbD k then acc ^^^ xtimes k a else acc) 0x00#8

/-! The S-boxes -/

/-- The table of R252: one number per row `X_`, its two-digit columns `_0` to `_F` from left to right. -/
def sboxRows : List Nat :=
  [0x637c777bf26b6fc53001672bfed7ab76, 0xca82c97dfa5947f0add4a2af9ca472c0,
   0xb7fd9326363ff7cc34a5e5f171d83115, 0x04c723c31896059a071280e2eb27b275] ++
  [0x09832c1a1b6e5aa0523bd6b329e32f84, 0x53d100ed20fcb15b6acbbe394a4c58cf,
   0xd0efaafb434d338545f9027f503c9fa8, 0x51a3408f929d38f5bcb6da2110fff3d2] ++
  [0xcd0c13ec5f974417c4a77e3d645d1973, 0x60814fdc222a908846eeb814de5e0bdb,
   0xe0323a0a4906245cc2d3ac629195e479, 0xe7c8376d8dd54ea96c56f4ea657aae08] ++
  [0xba78252e1ca6b4c6e8dd741f4bbd8b8a, 0x703eb5664803f60e613557b986c11d9e,
   0xe1f8981169d98e949b1e87e9ce5528df, 0x8ca1890dbfe6426841992d0fb054bb16]

/-- The table of R253, written as `sboxRows`. -/
def invSboxRows : List Nat :=
  [0x52096ad53036a538bf40a39e81f3d7fb, 0x7ce339829b2fff87348e4344c4dee9cb,
   0x547b9432a6c2233dee4c950b42fac34e, 0x082ea16628d924b2765ba2496d8bd125] ++
  [0x72f8f66486689816d4a45ccc5d65b692, 0x6c704850fdedb9da5e154657a78d9d84,
   0x90d8ab008cbcd30af7e45805b8b34506, 0xd02c1e8fca3f0f02c1afbd0301138a6b] ++
  [0x3a9111414f67dcea97f2cfcef0b4e673, 0x96ac7422e7ad3585e2f937e81c75df6e,
   0x47f11a711d29c5896fb7620eaa18be1b, 0xfc563e4bc6d279209adbc0fe78cd5af4] ++
  [0x1fdda8338807c731b11210592780ec5f, 0x60517fa919b54a0d2de57a9f93c99cef,
   0xa0e03b4dae2af5b0c8ebbb3c83539961, 0x172b047eba77d626e169146355210c7d]

/-- The entry `0xXY` of a table: column `_Y` of row `X_`. -/
def tableByte (rows : List Nat) (a : Byte) : Byte :=
  BitVec.ofNat 8 (rows.getD (a.toNat / 16) 0 / 2 ^ (8 * (15 - a.toNat % 16)))

/-- `S` (R252). -/
def sbox (a : Byte) : Byte := tableByte sboxRows a

/-- `InvS` (R253). -/
def invSbox (a : Byte) : Byte := tableByte invSboxRows a

/-! Key expansion (R254) -/

/-- Four bytes as a word. -/
def keyWord (a0 a1 a2 a3 : Byte) : KeyWord := #v[a0, a1, a2, a3]

/-- RotWord (R254). -/
def rotWord (t : KeyWord) : KeyWord := keyWord t[1] t[2] t[3] t[0]

/-- SubWord (R254). -/
def subWord (t : KeyWord) : KeyWord := keyWord (sbox t[0]) (sbox t[1]) (sbox t[2]) (sbox t[3])

/-- The exclusive or of two words. -/
def xorWord (t u : KeyWord) : KeyWord := Vector.ofFn fun i : Fin 4 => t[i] ^^^ u[i]

/-- Rcon[1..10] (R254). -/
def rcon (i : Nat) : Byte :=
  ([0x01, 0x02, 0x04, 0x08, 0x10, 0x20, 0x40, 0x80, 0x1B, 0x36] : List Byte).getD (i - 1) 0

/-- Word `i` of an expansion. -/
def wordAt (w : List KeyWord) (i : Nat) : KeyWord := w.getD i (keyWord 0 0 0 0)

/-- `w[0..3]`: the key's bytes in order. -/
def initialWords (k : Block) : List KeyWord :=
  [keyWord k[0] k[1] k[2] k[3], keyWord k[4] k[5] k[6] k[7],
   keyWord k[8] k[9] k[10] k[11], keyWord k[12] k[13] k[14] k[15]]

/-- One turn of the loop of R254: append `w[i]` to `w[0..i)`. -/
def expandWord (w : List KeyWord) (i : Nat) : List KeyWord :=
  let t := wordAt w (i - 1)
  let t := if i % 4 = 0 then xorWord (subWord (rotWord t)) (keyWord (rcon (i / 4)) 0x00 0x00 0x00) else t
  w ++ [xorWord (wordAt w (i - 4)) t]

/-- The 44 words of the key expansion (R254). -/
def keyExpansion (k : Block) : List KeyWord := (List.range' 4 40).foldl expandWord (initialWords k)

/-! The rounds -/

/-- `s[q][c]`, byte `q + 4c` (R250). -/
def stateByte (s : Block) (q c : Nat) : Byte := s.toList.getD (q + 4 * c) 0

/-- The block whose state bytes `s'[q][c]` are `f q c` (R250). -/
def ofState (f : Nat → Nat → Byte) : Block := Vector.ofFn fun i : Fin 16 => f (i.val % 4) (i.val / 4)

/-- AddRoundKey(r) (R255). -/
def addRoundKey (w : List KeyWord) (r : Nat) (s : Block) : Block :=
  ofState fun q c => stateByte s q c ^^^ (wordAt w (4 * r + c)).toList.getD q 0

/-- InvShiftRows: `s'[q][c] = s[q][(c - q) mod 4]` (R256). -/
def invShiftRows (s : Block) : Block := ofState fun q c => stateByte s q ((c + 4 - q) % 4)

/-- InvSubBytes (R257). -/
def invSubBytes (s : Block) : Block := ofState fun q c => invSbox (stateByte s q c)

/-- Row `q` of the column matrix of R258, the coefficient of `a_j`: 0x0E, 0x0B, 0x0D, 0x09 rotated right by `q`. -/
def invMixCoeff (q j : Nat) : Byte := ([0x0E, 0x0B, 0x0D, 0x09] : List Byte).getD ((j + 4 - q) % 4) 0

/-- InvMixColumns (R258). -/
def invMixColumns (s : Block) : Block :=
  ofState fun q c =>
    gmul (invMixCoeff q 0) (stateByte s 0 c) ^^^ gmul (invMixCoeff q 1) (stateByte s 1 c) ^^^
      gmul (invMixCoeff q 2) (stateByte s 2 c) ^^^ gmul (invMixCoeff q 3) (stateByte s 3 c)

/-- The rounds `r` downto 1 and the last round, from the state after AddRoundKey(10) when `r` is 9 (R259). -/
def invRounds (w : List KeyWord) : Nat → Block → Block
  | 0, s => addRoundKey w 0 (invSubBytes (invShiftRows s))
  | r + 1, s => invRounds w r (invMixColumns (addRoundKey w (r + 1) (invSubBytes (invShiftRows s))))

/-- AESDec(K, C) (R259). -/
def aesDec (k c : Block) : Block :=
  let w := keyExpansion k
  invRounds w 9 (addRoundKey w 10 c)

end Sys2Proof.Machine
end

