-- ==== Sys2Proof/Machine/Flags.lean ====
section
/-! DEFINITION. The STATUS register as the host reads it: the values of its fields and their places (10_state R42). -/

namespace Sys2Proof.Machine

/-- The number of a result code (R400). -/
def ResultCode.code : ResultCode → Nat
  | .ok => 0
  | .empty => 1
  | .frameShort => 2
  | .frameAlign => 3
  | .invalidLength => 4
  | .cipherFail => 5
  | .invalidPadding => 6
  | .sizeMismatch => 7
  | .checksumMismatch => 8
  | .keyLocked => 9
  | .illegalCmd => 10

/-- The number of a link state (R46). -/
def LinkState.code : LinkState → Nat
  | .disconnected => 0
  | .connecting => 1
  | .connected => 2

/-- The number of an attempt (R48). -/
def Attempt.code : Attempt → Nat
  | .noAttempt => 0
  | .beginAttempt => 1
  | .reconnectAttempt => 2

/-- STATUS, each field at its lowest bit; bits [31:14] are 0 (R42). -/
def statusWord (s : State) : Word :=
  BitVec.ofNat 32
    (s.result.code + s.keyValid.toNat * 2 ^ 4 + s.mbxReady.toNat * 2 ^ 5 + s.link.code * 2 ^ 6 +
      s.hadBegun.toNat * 2 ^ 8 + s.attempt.code * 2 ^ 9 + s.publish.toNat * 2 ^ 11 +
      s.readingValid.toNat * 2 ^ 12 + s.sensorErr.toNat * 2 ^ 13)

end Sys2Proof.Machine
end

