-- ==== Sys2Proof/Machine/Ops.lean ====
section
/-! DEFINITION. The operations every unit shares: byte memory, the two buffers, `finish`, and the host window's reads and
writes. The block takes no exception and returns from none (R410, R412): `State.finish` stands in that place (R16). -/

namespace Sys2Proof.Machine

/-! Byte memory -/

/-- The canonical form: addresses strictly rising, no cell that holds what an unlisted address reads as. -/
abbrev Memory.wf (m : Memory) : Prop := m.Pairwise (fun c d => c.1 < d.1) ∧ ∀ c ∈ m, c.2 ≠ 0

/-- The byte at an address; an unlisted address reads 0 (R14, R90). -/
def Memory.read : Memory → Nat → Byte
  | [], _ => 0
  | (b, v) :: m, a => if b = a then v else Memory.read m a

/-- The bytes `base` to `base + n - 1`. -/
def Memory.readBytes (m : Memory) (base n : Nat) : List Byte :=
  (List.range n).map fun i => Memory.read m (base + i)

/-- The cells of a byte sequence stored from `base` on, zeros left out. -/
def cellsOf : Nat → List Byte → Memory
  | _, [] => []
  | base, b :: bs => if b = 0 then cellsOf (base + 1) bs else (base, b) :: cellsOf (base + 1) bs

/-- The memory after storing a byte sequence from `base` on. -/
def Memory.writeBytes (m : Memory) (base : Nat) (bs : List Byte) : Memory :=
  m.filter (fun c => decide (c.1 < base)) ++ cellsOf base bs ++
    m.filter (fun c => decide (base + bs.length ≤ c.1))

/-! The two buffers -/

/-- `FRAME_BUF[i .. i+n)` (R70). -/
def State.frameBytes (s : State) (i n : Nat) : List Byte := s.mem.readBytes (frameBase + i) n

/-- `PT_BUF[i .. i+n)` (R71). -/
def State.ptBytes (s : State) (i n : Nat) : List Byte := s.mem.readBytes (ptBase + i) n

/-- The state after storing a byte sequence into the host window's buffers from window offset `off` on. -/
def State.storeWindow (s : State) (off : Nat) (bs : List Byte) : State :=
  { s with mem := s.mem.writeBytes off bs }

/-! Command completion -/

/-- `finish(code)`: writes STATUS.RESULT and makes no other change (R16). -/
def State.finish (code : ResultCode) (s : State) : State := { s with result := code }

/-! Host-window reads and writes (R102, R103, R104) -/

/-- The value a legal read of a register returns: write-only registers read 0, undefined bits read 0 (R102). -/
def readReg (r : Reg) (s : State) : Word :=
  match r with
  | .id => 0x00070001#32
  | .cmd => 0
  | .status => statusWord s
  | .lastNow => s.lastNow
  | .key _ => 0
  | .iv k => blockWord s.ivr k
  | .frameLen => zext32 s.frameLen
  | .frameRssi => s.frameRssi
  | .frameSnr => s.frameSnr
  | .ptLen => zext32 s.ptLen
  | .rdIrr => zext32 s.rdIrr
  | .rdBatt => zext32 s.rdBatt
  | .rdTemp => s.rdTemp
  | .rdTs => s.rdTs
  | .rdCsum => zext32 s.rdCsum
  | .linkNext => s.linkNext
  | .linkBackoff => s.linkBackoff
  | .linkJitter => s.linkJitter
  | .decCount => s.decCount
  | .frameBuf k => wordOfLanes (s.frameBytes (4 * k.val) 4)
  | .ptBuf k => wordOfLanes (s.ptBytes (4 * k.val) 4)

/-- The state after a legal write of `v` to a register other than CMD: read-only registers ignore it (R104), the others
perform the update of their rule (R103). A write to CMD issues a command instead (`issueHost`, R41) and stores nothing. -/
def writeReg (r : Reg) (v : Word) (s : State) : State :=
  match r with
  | .id => s
  | .cmd => s
  | .status => s
  | .lastNow => s
  | .key k => { s with kst := setBlockWord s.kst k v }
  | .iv k => { s with ivr := setBlockWord s.ivr k v }
  | .frameLen => { s with frameLen := clampLen v }
  | .frameRssi => { s with frameRssi := v }
  | .frameSnr => { s with frameSnr := v }
  | .ptLen => { s with ptLen := clampLen v }
  | .rdIrr => s
  | .rdBatt => s
  | .rdTemp => s
  | .rdTs => s
  | .rdCsum => s
  | .linkNext => s
  | .linkBackoff => s
  | .linkJitter => s
  | .decCount => s
  | .frameBuf k => s.storeWindow (frameBase + 4 * k.val) (lanes v)
  | .ptBuf k => s.storeWindow (ptBase + 4 * k.val) (lanes v)

end Sys2Proof.Machine
end

