-- ==== Sys2Proof/Machine/Cipher.lean ====
section
/-! DEFINITION. The block cipher engine: KEY_LOAD, AES_DECRYPT and the CBC core (41_cipher.md sections 1 to 3). -/

namespace Sys2Proof.Machine

/-- CBC decryption of `n` blocks of `ct` chained on `prev`: plaintext block `j` is AESDec of ciphertext block `j`
exclusive-ored with ciphertext block `j - 1`, and with the IV for block 0 (R235, R237). -/
def cbcDecrypt (k : Block) : Nat → Block → List Byte → List Byte
  | 0, _, _ => []
  | n + 1, prev, ct =>
    let c := blockOfBytes ct
    (xorBlock (aesDec k c) prev).toList ++ cbcDecrypt k n c (ct.drop blk)

/-- PKCS#7 unpadding: the last byte `p` satisfies `1 <= p <= 16` and the last `p` bytes all equal `p`; the result is
the rest (R235, R238). -/
def unpad (P : List Byte) : Option (List Byte) :=
  let p := (P.getD (P.length - 1) 0).toNat
  if p < 1 ∨ padMax < p then none
  else if (P.drop (P.length - p)).all (fun b => b.toNat == p) then some (P.take (P.length - p))
  else none

/-- CBC_CORE(iv, ct): the result code and the state it leaves; it writes only PT_BUF, PT_LEN and DEC_COUNT, and PT_BUF
and PT_LEN on success alone (R235, R236, R239, R240). -/
def cbcCore (iv : Block) (ct : List Byte) (s : State) : ResultCode × State :=
  if s.keyValid then
    let s := { s with decCount := s.decCount + 1 }
    match unpad (cbcDecrypt s.key (ct.length / blk) iv ct) with
    | none => (.invalidPadding, s)
    | some P =>
      (.ok, { s.storeWindow ptBase (fill128 P P.length) with ptLen := BitVec.ofNat 8 P.length })
  else (.cipherFail, s)

/-- KEY_LOAD: store the staged key, once, and clear the staging bytes whatever the outcome (R221, R222). -/
def execKeyLoad (s : State) : Host.Outcome State Fault Refusal :=
  if s.keyValid then .next (({ s with kst := zeroBlock }).finish .keyLocked)
  else .next (({ s with key := s.kst, keyValid := true, kst := zeroBlock }).finish .ok)

/-- AES_DECRYPT: decrypt FRAME_BUF[off .. off+len) with the IV in IVR and unpad (R230, R231, R232). -/
def execAesDecrypt (off len : Nat) (s : State) : Host.Outcome State Fault Refusal :=
  if len < 16 ∨ len % 16 ≠ 0 ∨ off + len > 128 then .next (s.finish .invalidLength)
  else
    let r := cbcCore s.ivr (s.frameBytes off len) s
    .next (r.2.finish r.1)

end Sys2Proof.Machine
end

