-- ==== Sys2Proof/Machine/Codec.lean ====
section
/-! DEFINITION. The byte codec and payload decoder: DECODE and the decode stage (42_codec.md). -/

namespace Sys2Proof.Machine

/-- The state after a failed decode stage: READING_VALID and SENSOR_ERR are cleared, RD_* keep their values (R266). -/
def State.dropReading (s : State) : State := { s with readingValid := false, sensorErr := false }

/-- The state after a successful decode of the record `B` (R262, R266, R267). -/
def State.latchReading (B : List Byte) (s : State) : State :=
  { s with
    rdIrr := BitVec.ofNat 16 (le16 B 0)
    rdBatt := BitVec.ofNat 16 (le16 B 2)
    rdTemp := sext32 (BitVec.ofNat 16 (le16 B 4))
    rdTs := BitVec.ofNat 32 (le32 B 6)
    rdCsum := B.getD 10 0
    readingValid := true
    sensorErr := le16 B 0 == irrSentinel }

/-- DECODE_STAGE(): size check, then checksum, then the fields (R266). The bytes of PT_BUF beyond index 10 are never
read (R265). -/
def decodeStage (s : State) : ResultCode × State :=
  let B := s.ptBytes 0 recLen
  if s.ptLen.toNat ≠ recLen then (.sizeMismatch, s.dropReading)
  else if sum8 B 0 csumSpan ≠ (B.getD 10 0).toNat then (.checksumMismatch, s.dropReading)
  else (.ok, s.latchReading B)

/-- DECODE: validate and decode the record in PT_BUF (R265). -/
def execDecode (s : State) : Host.Outcome State Fault Refusal :=
  let r := decodeStage s
  .next (r.2.finish r.1)

end Sys2Proof.Machine
end

