-- ==== Sys2Proof/Machine/Link.lean ====
section
/-! DEFINITION. The connectivity state machine: LINK_TICK, LINK_EVENT and FORCE_RECONNECT (43_link_fsm.md). -/

namespace Sys2Proof.Machine

/-- NEXT_INTERVAL(b) = min(max(2 * b, BACKOFF_FLOOR), BACKOFF_CEIL), computed without overflow (R283). -/
def nextInterval (cfg : Config) (b : Nat) : Nat := min (max (2 * b) cfg.backoffFloor) cfg.backoffCeil

/-- JITTER(b, r) = r mod (b div 10 + 1) (R284). -/
def jitter (b r : Nat) : Nat := r % (b / jitterDiv + 1)

/-- `(now + GUARD_WINDOW) mod 2^32` (R288, R290). -/
def guardDeadline (cfg : Config) (now : Word) : Word := BitVec.ofNat 32 (now.toNat + cfg.guardWindow)

/-- The attempt branch of LINK_TICK: emit BEGIN or RECONNECT, become Connecting, and schedule the next attempt
(R285, R287, R294). -/
def attemptLink (now r : Word) (s : State) : State :=
  let b := nextInterval s.cfg s.linkBackoff.toNat
  let j := jitter b r.toNat
  { s with
    netOut := s.netOut ++ [if s.hadBegun then .reconnect else .beginConnect]
    attempt := if s.hadBegun then .reconnectAttempt else .beginAttempt
    hadBegun := true
    link := .connecting
    linkBackoff := BitVec.ofNat 32 b
    linkJitter := BitVec.ofNat 32 j
    linkNext := BitVec.ofNat 32 (now.toNat + b + j) }

/-- LINK_TICK (R285, R286, R288). -/
def execLinkTick (s : State) : Host.Outcome State Fault Refusal :=
  let now := s.env.time
  let s := { s with lastNow := now, attempt := .noAttempt }
  if s.link = .connected then
    let g := guardDeadline s.cfg now
    .next (({ s with linkNext := if s.linkNext.toNat < g.toNat then g else s.linkNext }).finish .ok)
  else if s.linkNext.toNat ≤ now.toNat then .next ((attemptLink now s.env.rand s).finish .ok)
  else .next (s.finish .ok)

/-- LINK_EVENT UP or DOWN; a network command never finishes (R289 to R292, R16). -/
def execLinkEvent (up : Bool) (s : State) : Host.Outcome State Fault Refusal :=
  let now := s.env.time
  let s := { s with lastNow := now }
  if up then
    if s.link = .connected then .next s
    else
      .next
        { s with
          link := .connected
          linkBackoff := BitVec.ofNat 32 s.cfg.backoffFloor
          linkNext := guardDeadline s.cfg now }
  else if s.link = .connected then
    .next
      { s with
        link := .disconnected
        linkBackoff := if s.linkBackoff = 0 then BitVec.ofNat 32 s.cfg.backoffFloor else s.linkBackoff }
  else .next { s with link := .disconnected }

/-- FORCE_RECONNECT: clear HAD_BEGUN, LINK_BACKOFF and LINK_NEXT; LINK is not changed (R293). -/
def execForceReconnect (s : State) : Host.Outcome State Fault Refusal :=
  .next (({ s with hadBegun := false, linkBackoff := 0, linkNext := 0 }).finish .ok)

end Sys2Proof.Machine
end

