-- ==== Sys2Proof/Machine/Mailbox.lean ====
section
/-! DEFINITION. The packet mailbox: RADIO_POST and MBX_TAKE (40_mailbox.md). -/

namespace Sys2Proof.Machine

/-- RADIO_POST: store the delivered frame, truncated to 128 bytes, over whatever the slot held (R201, R202, R203). -/
def execRadioPost (n : Nat) (s : State) : Host.Outcome State Fault Refusal :=
  let m := min n slotCap
  .next
    { s with
      slot := s.slot.writeBytes 0 (fill128 s.env.radioData.toList m)
      slotLen := BitVec.ofNat 8 m
      slotRssi := s.env.radioRssi
      slotSnr := s.env.radioSnr
      mbxReady := true }

/-- MBX_TAKE: copy the pending frame into FRAME_BUF and clear the ready flag; with none pending, FRAME_LEN becomes 0
(R205, R206). -/
def execMbxTake (s : State) : Host.Outcome State Fault Refusal :=
  if s.mbxReady then
    .next
      (({ s.storeWindow frameBase (s.slot.readBytes 0 slotCap) with
          frameLen := s.slotLen
          frameRssi := s.slotRssi
          frameSnr := s.slotSnr
          mbxReady := false }).finish .ok)
  else
    .next (({ s with frameLen := 0 }).finish .empty)

end Sys2Proof.Machine
end

