-- ==== Sys2Proof/Machine/Pipeline.lean ====
section
/-! DEFINITION. The frame pipeline and NOP: PROCESS_FRAME and NOP (44_pipeline.md). -/

namespace Sys2Proof.Machine

/-- The stages past the framing checks: CBC core, decode stage when it passed, publish gate, with the codes' order
(R311, R313, R315). -/
def runStages (iv : Block) (ct : List Byte) (s : State) : ResultCode × State :=
  let c := cbcCore iv ct s
  if c.1 = .ok then
    let d := decodeStage c.2
    if d.1 = .ok then (.ok, { d.2 with publish := decide (d.2.link = .connected) }) else d
  else c

/-- PROCESS_FRAME: check, decrypt and decode the frame in FRAME_BUF and decide whether its reading is published
(R311, R312). -/
def execProcessFrame (s : State) : Host.Outcome State Fault Refusal :=
  let s := { s with publish := false }
  let L := s.frameLen.toNat
  if L < minFrame then .next (s.finish .frameShort)
  else if (L - blk) % blk ≠ 0 then .next (s.finish .frameAlign)
  else
    let r := runStages (blockOfBytes (s.frameBytes 0 blk)) (s.frameBytes blk (L - blk)) s
    .next (r.2.finish r.1)

/-- NOP: finish OK (R317). -/
def execNop (s : State) : Host.Outcome State Fault Refusal := .next (s.finish .ok)

end Sys2Proof.Machine
end

