-- ==== Sys2Proof/Machine/Dispatch.lean ====
section
/-! DEFINITION. One arm per command: the meaning of each. -/

namespace Sys2Proof.Machine

def exec (i : Instr) (s : State) : Host.Outcome State Fault Refusal :=
  match i with
  | .nop => Sys2Proof.Machine.execNop s
  | .keyLoad => Sys2Proof.Machine.execKeyLoad s
  | .aesDecrypt off len => Sys2Proof.Machine.execAesDecrypt off len s
  | .decode => Sys2Proof.Machine.execDecode s
  | .mbxTake => Sys2Proof.Machine.execMbxTake s
  | .linkTick => Sys2Proof.Machine.execLinkTick s
  | .forceReconnect => Sys2Proof.Machine.execForceReconnect s
  | .processFrame => Sys2Proof.Machine.execProcessFrame s
  | .radioPost n => Sys2Proof.Machine.execRadioPost n s
  | .linkEvent up => Sys2Proof.Machine.execLinkEvent up s

end Sys2Proof.Machine
end

