-- ==== Sys2Proof/Machine/Ports.lean ====
section
/-! DEFINITION. The three ports and the arbiter: what a word on a port does, what a host bus transaction does, and one
turn of the arbiter (20_memory.md, 30_encoding R147 to R149, 60_exceptions R403, R430). -/

namespace Sys2Proof.Machine

/-! A word on a port -/

/-- The host writes `w` to CMD: the command runs, and an illegal word runs `finish(ILLEGAL_CMD)` and changes no other
state (R41, R147, R318). -/
def issueHost (w : Word) (s : State) : Host.Outcome State Fault Refusal :=
  match decode .host w with
  | .ok i => exec i s
  | .error _ => .next (s.finish .illegalCmd)

/-- The radio's word `w`: an illegal word is ignored (R148, R403). -/
def issueRadio (w : Word) (s : State) : Host.Outcome State Fault Refusal :=
  match decode .radio w with
  | .ok i => exec i s
  | .error _ => .next s

/-- The network collaborator's word `w`: an illegal word is ignored (R149, R403). -/
def issueNetwork (w : Word) (s : State) : Host.Outcome State Fault Refusal :=
  match decode .network w with
  | .ok i => exec i s
  | .error _ => .next s

/-! A host bus transaction -/

/-- The state after the host has received `v` from a read. -/
def State.returnRead (v : Word) (s : State) : State :=
  { s with env := { s.env with hostReads := s.env.hostReads ++ [v] } }

/-- One host bus transaction (R100 to R106, R109): a read has no effect on the block, a write performs its register's
update or issues a command, and a bus error stops the run with no state changed (log 6). -/
def hostAccess (a : BusAccess) (s : State) : Host.Outcome State Fault Refusal :=
  match a with
  | .read addr width =>
    match busTarget s.cfg addr width with
    | .error f => .fault f
    | .ok r => .next (s.returnRead (readReg r s))
  | .write addr width v =>
    match busTarget s.cfg addr width with
    | .error f => .fault f
    | .ok r => if r = .cmd then issueHost v s else .next (writeReg r v s)

/-! The arbiter -/

/-- The state with the inputs of a turn on TIME and RAND and that turn taken off the schedule (R17, R111). -/
def State.takeTurn (t : Turn) (rest : List Turn) (s : State) : State :=
  { s with env := { s.env with time := t.time, rand := t.rand, schedule := rest } }

/-- The state with the host's next transaction taken off its list. -/
def State.popHost (rest : List BusAccess) (s : State) : State :=
  { s with env := { s.env with host := rest } }

/-- The state with the radio's next word taken off its list and its side band on the port's lines (R143). -/
def State.popRadio (q : RadioRequest) (rest : List RadioRequest) (s : State) : State :=
  { s with
    env := { s.env with radioData := q.data, radioRssi := q.rssi, radioSnr := q.snr, radio := rest } }

/-- The state with the network collaborator's next word taken off its list. -/
def State.popNetwork (rest : List Word) (s : State) : State :=
  { s with env := { s.env with network := rest } }

/-- Serve one port: perform the next item of its agent completely; an agent with nothing to issue lets its turn pass
(R110, R111; 93 I23; log 11). -/
def servePort (p : Port) (s : State) : Host.Outcome State Fault Refusal :=
  match p with
  | .host =>
    match s.env.host with
    | [] => .next s
    | a :: rest => hostAccess a (s.popHost rest)
  | .radio =>
    match s.env.radio with
    | [] => .next s
    | q :: rest => issueRadio q.word (s.popRadio q rest)
  | .network =>
    match s.env.network with
    | [] => .next s
    | w :: rest => issueNetwork w (s.popNetwork rest)

/-- One turn of the arbiter; with nothing scheduled the block waits (R111, R452; log 11). -/
def runTurn (s : State) : Host.Outcome State Fault Refusal :=
  match s.env.schedule with
  | [] => .next s
  | t :: rest => servePort t.port (s.takeTurn t rest)

/-! Placing a word on its port -/

/-- The address of CMD. -/
def cmdAddr (cfg : Config) : Nat := cfg.hostBase + Reg.offset .cmd

/-- The state in which the arbiter serves port `p` next and finds the word `w` there, every input line as it is; the
side band of a radio word is zeros (log 9). -/
def State.withPortWord (p : Port) (w : Word) (s : State) : State :=
  let turn : Turn := { port := p, time := s.env.time, rand := s.env.rand }
  let env := { s.env with schedule := turn :: s.env.schedule }
  match p with
  | .host => { s with env := { env with host := .write (cmdAddr s.cfg) 4 w :: s.env.host } }
  | .radio =>
    let q : RadioRequest := { word := w, data := Vector.replicate 128 0, rssi := 0, snr := 0 }
    { s with env := { env with radio := q :: s.env.radio } }
  | .network => { s with env := { env with network := w :: s.env.network } }

end Sys2Proof.Machine
end

