-- ==== Sys2Proof/Machine/Step.lean ====
section
/-! DEFINITION. One step of the machine: one turn of the arbiter, on an admissible configuration. -/

namespace Sys2Proof.Machine

/-- One step (R110, R111, R430). "A model refuses a configuration outside these bounds" (R10). -/
def step (s : State) : Host.Outcome State Fault Refusal :=
  if s.cfg.Admissible then runTurn s else .refused .configurationOutOfBounds

/-- `s` with a word of the opcode table stored where the next step finds it: at the head of its port's agent, whose
turn is next (log 9). -/
def State.withFetchWord (s : State) (nbits w : Nat) : State :=
  s.withPortWord (tablePort (tableWord nbits w)) (tableWord nbits w)

end Sys2Proof.Machine
end

