-- ==== Sys2Proof/Safety.lean ====
section
/-! DEFINITION. What a claim about the block is stated with: the invariants of R91, which host accesses are legal, and
which runs are safe. -/

namespace Sys2Proof.Machine

/-- The byte addresses of FRAME_BUF and PT_BUF (R70, R71). -/
abbrev InBuffers (a : Nat) : Prop := frameBase ≤ a ∧ a < frameBase + 2 * slotCap

/-- What every reachable state keeps: the invariants of R91 that the types do not hold already (LINK, ATTEMPT and RESULT
have no other values), R51's and R61's reading of SENSOR_ERR and RD_TEMP, and the canonical form of the two memories
(log 7). -/
structure State.Inv (s : State) : Prop where
  /-- `SLOT_LEN <= 128`. -/
  slotLen_le : s.slotLen.toNat ≤ 128
  /-- `FRAME_LEN <= 128`. -/
  frameLen_le : s.frameLen.toNat ≤ 128
  /-- `PT_LEN <= 128`. -/
  ptLen_le : s.ptLen.toNat ≤ 128
  /-- `SLOT[i] = 0` for `SLOT_LEN <= i < 128`. -/
  slot_zero : ∀ i, s.slotLen.toNat ≤ i → i < 128 → s.slot.read i = 0
  /-- `LINK_BACKOFF = 0` or `BACKOFF_FLOOR <= LINK_BACKOFF <= BACKOFF_CEIL`. -/
  backoff_range : s.linkBackoff = 0 ∨
    (s.cfg.backoffFloor ≤ s.linkBackoff.toNat ∧ s.linkBackoff.toNat ≤ s.cfg.backoffCeil)
  /-- `LINK_JITTER <= BACKOFF_CEIL div 10`. -/
  jitter_le : s.linkJitter.toNat ≤ s.cfg.backoffCeil / 10
  /-- SENSOR_ERR = 1 exactly when READING_VALID = 1 and RD_IRR = 0xFFFF (R51). -/
  sensor_iff : s.sensorErr = true ↔ s.readingValid = true ∧ s.rdIrr = 0xFFFF#16
  /-- `KEY_VALID = 0` implies KEY is all zero. -/
  key_zero : s.keyValid = false → s.key = zeroBlock
  /-- Bits [31:16] of RD_TEMP are copies of bit 15 (R61). -/
  temp_sext : s.rdTemp = (s.rdTemp.extractLsb' 0 16).signExtend 32
  /-- The host window's buffers are in canonical form. -/
  mem_wf : Memory.wf s.mem
  /-- The slot is in canonical form. -/
  slot_wf : Memory.wf s.slot
  /-- The memory of the host window holds bytes of the two buffers and of nothing else. -/
  mem_bounds : ∀ c ∈ s.mem, InBuffers c.1
  /-- The slot holds 128 bytes. -/
  slot_bounds : ∀ c ∈ s.slot, c.1 < slotCap

/-- The address and the width of a transaction. -/
def BusAccess.target : BusAccess → Nat × Nat
  | .read addr width => (addr, width)
  | .write addr width _ => (addr, width)

/-- An access that raises no bus error and lies in the host window (R100, R101). -/
def BusAccess.Legal (cfg : Config) (a : BusAccess) : Prop :=
  ∃ r, busTarget cfg a.target.1 a.target.2 = .ok r

/-- An environment that keeps its duty: an admissible configuration (R10) and a host that issues legal accesses only. -/
def State.Served (s : State) : Prop :=
  s.cfg.Admissible ∧ ∀ a ∈ s.env.host, a.Legal s.cfg

/-- A safe run: no number of steps ends in a fault or a refusal. -/
def State.Safe (s : State) : Prop :=
  ∀ k, ∃ t, Host.Core.run Sys2Proof.core k s = .next t

/-- The next item of the scheduled port is the host's write of the word `w` to CMD. -/
def State.IssuesHostWord (s : State) (w : Word) : Prop :=
  ∃ t rest as, s.env.schedule = t :: rest ∧ t.port = .host ∧ s.env.host = .write (cmdAddr s.cfg) 4 w :: as

/-- The port the arbiter serves next. -/
def State.nextPort (s : State) : Option Port := s.env.schedule.head?.map fun t => t.port

/-! Reference notions of the cipher claims -/

/-- The 16-byte chunk `j` of a byte sequence. -/
def chunk (B : List Byte) (j : Nat) : Block := blockOfBytes (B.drop (16 * j))

/-- `pad(P)`: `16 - (|P| mod 16)` bytes each of that value (R242). -/
def pad (P : List Byte) : List Byte :=
  List.replicate (16 - P.length % 16) (BitVec.ofNat 8 (16 - P.length % 16))

/-- `C` is an AES-128-CBC encryption of `Q` under `k` and `iv` by a reference encryptor: ciphertext block `j` is the
block that AESDec takes to `Q_j` exclusive-ored with the block before it (the IV before block 0). AES encryption itself
is outside the block (R7 (i), R242). -/
def CbcEncrypts (k iv : Block) (Q C : List Byte) : Prop :=
  C.length = Q.length ∧ Q.length % 16 = 0 ∧
    ∀ j, 16 * j < Q.length →
      aesDec k (chunk C j) = xorBlock (chunk Q j) (if j = 0 then iv else chunk C (j - 1))

/-! Reference notions of the link claims -/

/-- The state after a LINK_TICK made exactly when the deadline is reached (`TIME = LINK_NEXT`), with RAND = `r`. -/
def retryTick (s : State) (r : Word) : State :=
  match exec .linkTick { s with env := { s.env with time := s.linkNext, rand := r } } with
  | .next t => t
  | .fault _ => s
  | .refused _ => s

end Sys2Proof.Machine
end

