-- ==== Sys2Proof/Certificates/Slice0/Obligations.lean ====
section
/-! DEFINITION. The statements for the provers. Each docstring names the rule it formalises. -/

open Sys2Proof Sys2Proof.Machine

/-! Encoding -/

/-- One word of every row, written out from the formulas of R151, decodes to its command. -/
def Obligations.TableWordsDecode : Prop :=
  decode .host 0x00000000#32 = .ok .nop ∧ decode .host 0x00000001#32 = .ok .keyLoad ∧
  decode .host 0x00101002#32 = .ok (.aesDecrypt 16 16) ∧ decode .host 0x00FF0102#32 = .ok (.aesDecrypt 1 255) ∧
  decode .host 0x00000003#32 = .ok .decode ∧ decode .host 0x00000004#32 = .ok .mbxTake ∧
  decode .host 0x00000005#32 = .ok .linkTick ∧ decode .host 0x00000006#32 = .ok .forceReconnect ∧
  decode .host 0x00000007#32 = .ok .processFrame ∧ decode .radio 0x00002010#32 = .ok (.radioPost 32) ∧
  decode .network 0x00000120#32 = .ok (.linkEvent true) ∧ decode .network 0x00000020#32 = .ok (.linkEvent false)

/-- Decoding the encoding of a well-formed command on its port gives that command, with every operand at every value
its field admits (R141 to R145, R151). -/
def Obligations.EncodedCommandDecodesToItself : Prop :=
  ∀ i : Instr, i.wellFormed = true → decode i.port (encode i) = .ok i

/-- A word that decodes on a port is the encoding of what it decodes to, which is well formed and belongs to that port:
no word has two meanings and no bit of a legal word is dropped (R140 to R149, R426). -/
def Obligations.DecodedWordIsItsEncoding : Prop :=
  ∀ (p : Port) (w : Word) (i : Instr), decode p w = .ok i → i.wellFormed = true ∧ i.port = p ∧ encode i = w

/-- R145: every operand field is the unsigned integer of its bits, taken as it stands. -/
def Obligations.OperandFieldsAreUnsigned : Prop :=
  (∀ (w : Word) (off len : Nat), decode .host w = .ok (.aesDecrypt off len) →
    off = (w.extractLsb' 8 8).toNat ∧ len = (w.extractLsb' 16 8).toNat) ∧
  (∀ (w : Word) (n : Nat), decode .radio w = .ok (.radioPost n) → n = (w.extractLsb' 8 16).toNat) ∧
  (∀ (w : Word) (up : Bool), decode .network w = .ok (.linkEvent up) → up = w.getLsbD 8)

/-- The rows of the opcode table: a word decodes to a row's command exactly when its bits under the row's mask are the
row's match, on the row's port. -/
def Obligations.OpcodeTableRowsDecode : Prop :=
  (∀ w : Word, decode .host w = .ok .nop ↔ w = 0x00#32) ∧
  (∀ w : Word, decode .host w = .ok .keyLoad ↔ w = 0x01#32) ∧
  (∀ w : Word, (∃ off len, decode .host w = .ok (.aesDecrypt off len)) ↔ w &&& 0xFF0000FF#32 = 0x02#32) ∧
  (∀ w : Word, decode .host w = .ok .decode ↔ w = 0x03#32) ∧
  (∀ w : Word, decode .host w = .ok .mbxTake ↔ w = 0x04#32) ∧
  (∀ w : Word, decode .host w = .ok .linkTick ↔ w = 0x05#32) ∧
  (∀ w : Word, decode .host w = .ok .forceReconnect ↔ w = 0x06#32) ∧
  (∀ w : Word, decode .host w = .ok .processFrame ↔ w = 0x07#32) ∧
  (∀ w : Word, (∃ n, decode .radio w = .ok (.radioPost n)) ↔ w &&& 0xFF0000FF#32 = 0x10#32) ∧
  (∀ w : Word, (∃ up, decode .network w = .ok (.linkEvent up)) ↔ w &&& 0xFFFFFEFF#32 = 0x20#32)

/-- R147 and R318: a host word is legal when OP is 0x00 to 0x07, RSV = 0, and A = B = 0 unless OP = 0x02; a legal word
runs its command, any other finishes ILLEGAL_CMD and changes nothing else. -/
def Obligations.HostWordLegality : Prop :=
  ∀ (w : Word) (s : State),
    let legal := w.extractLsb' 0 8 ≤ 0x07#8 ∧ w.extractLsb' 24 8 = 0#8 ∧
      (w.extractLsb' 0 8 = 0x02#8 ∨ (w.extractLsb' 8 8 = 0#8 ∧ w.extractLsb' 16 8 = 0#8))
    (legal → ∃ i, decode .host w = .ok i ∧ issueHost w s = exec i s) ∧
    (¬ legal → issueHost w s = .next { s with result := .illegalCmd })

/-- R148, R149 and R403: a radio word is legal when OP = 0x10 and RSV = 0, a network word when OP = 0x20 and bits
[31:9] = 0; a legal word runs its command, any other is ignored, with no state change. -/
def Obligations.RadioAndNetworkWordLegality : Prop :=
  ∀ (w : Word) (s : State),
    ((w.extractLsb' 0 8 = 0x10#8 ∧ w.extractLsb' 24 8 = 0#8) →
      ∃ i, decode .radio w = .ok i ∧ issueRadio w s = exec i s) ∧
    (¬ (w.extractLsb' 0 8 = 0x10#8 ∧ w.extractLsb' 24 8 = 0#8) → issueRadio w s = .next s) ∧
    ((w.extractLsb' 0 8 = 0x20#8 ∧ w.extractLsb' 9 23 = 0#23) →
      ∃ i, decode .network w = .ok i ∧ issueNetwork w s = exec i s) ∧
    (¬ (w.extractLsb' 0 8 = 0x20#8 ∧ w.extractLsb' 9 23 = 0#23) → issueNetwork w s = .next s)

/-! The step, the ports and the host bus -/

/-- A step runs the decoded command: when the served port's next word decodes, the step is `exec` of that command at the
state with the turn's TIME and RAND on the inputs and the word taken off its agent (R41, R110, R111). -/
def Obligations.StepRunsTheDecodedCommand : Prop :=
  ∀ (s : State) (turn : Turn) (rest : List Turn) (i : Instr), s.cfg.Admissible → s.env.schedule = turn :: rest →
    (∀ (w : Word) (as : List BusAccess), turn.port = .host → s.env.host = .write (cmdAddr s.cfg) 4 w :: as →
      decode .host w = .ok i → step s = exec i ((s.takeTurn turn rest).popHost as)) ∧
    (∀ (q : RadioRequest) (qs : List RadioRequest), turn.port = .radio → s.env.radio = q :: qs →
      decode .radio q.word = .ok i → step s = exec i ((s.takeTurn turn rest).popRadio q qs)) ∧
    (∀ (w : Word) (ws : List Word), turn.port = .network → s.env.network = w :: ws →
      decode .network w = .ok i → step s = exec i ((s.takeTurn turn rest).popNetwork ws))

/-- R101 and R106: in the host window the legal accesses are exactly the 4-byte ones at a multiple of 4 that are not in
0x064 to 0x0FC nor in 0x200 to 0xFFC. That on any other the access stops with a fault that carries the read data 0 is the
model's reading of R105 and R402 (log 6, DEDUCED). -/
def Obligations.BusErrorsAreExactlyTheIllegalAccesses : Prop :=
  ∀ (s : State) (off width : Nat), off < 0x1000 →
    ((∃ r, busTarget s.cfg (s.cfg.hostBase + off) width = .ok r) ↔
      width = 4 ∧ off % 4 = 0 ∧ (off < 0x064 ∨ (0x100 ≤ off ∧ off < 0x200))) ∧
    (¬ (width = 4 ∧ off % 4 = 0 ∧ (off < 0x064 ∨ (0x100 ≤ off ∧ off < 0x200))) →
      hostAccess (.read (s.cfg.hostBase + off) width) s =
        .fault (.busError (s.cfg.hostBase + off) width 0) ∧
      ∀ v, hostAccess (.write (s.cfg.hostBase + off) width v) s =
        .fault (.busError (s.cfg.hostBase + off) width 0))

/-- R102 and R109: a legal read returns the register's current value and has no side effect on the block; write-only
registers read 0 and the bits a rule does not define read 0. The record of the host's reads is the model's (log 10). -/
def Obligations.ReadsReturnTheRegister : Prop :=
  ∀ s : State,
    (∀ r, hostAccess (.read (s.cfg.hostBase + r.offset) 4) s =
      .next { s with env := { s.env with hostReads := s.env.hostReads ++ [readReg r s] } }) ∧
    readReg .id s = 0x00070001#32 ∧ readReg .cmd s = 0 ∧ (∀ k, readReg (.key k) s = 0) ∧
    readReg .lastNow s = s.lastNow ∧ (readReg .frameLen s).toNat = s.frameLen.toNat ∧
    readReg .frameRssi s = s.frameRssi ∧ readReg .frameSnr s = s.frameSnr ∧
    (readReg .ptLen s).toNat = s.ptLen.toNat ∧ (readReg .rdIrr s).toNat = s.rdIrr.toNat ∧
    (readReg .rdBatt s).toNat = s.rdBatt.toNat ∧ readReg .rdTemp s = s.rdTemp ∧ readReg .rdTs s = s.rdTs ∧
    (readReg .rdCsum s).toNat = s.rdCsum.toNat ∧ readReg .linkNext s = s.linkNext ∧
    readReg .linkBackoff s = s.linkBackoff ∧ readReg .linkJitter s = s.linkJitter ∧
    readReg .decCount s = s.decCount ∧
    (∀ k (j : Fin 4), (readReg (.iv k) s).extractLsb' (8 * j.val) 8 = s.ivr[4 * k.val + j.val]) ∧
    (∀ k (j : Fin 4), (readReg (.frameBuf k) s).extractLsb' (8 * j.val) 8 = s.mem.read (0x100 + (4 * k.val + j.val))) ∧
    (∀ k (j : Fin 4), (readReg (.ptBuf k) s).extractLsb' (8 * j.val) 8 = s.mem.read (0x180 + (4 * k.val + j.val)))

/-- R42: the places of the STATUS fields; bits [31:14] read 0 and writes to STATUS are ignored. -/
def Obligations.StatusFieldsStandInTheirPlaces : Prop :=
  ∀ s : State,
    ((readReg .status s).extractLsb' 0 4).toNat = s.result.code ∧
    (readReg .status s).getLsbD 4 = s.keyValid ∧ (readReg .status s).getLsbD 5 = s.mbxReady ∧
    ((readReg .status s).extractLsb' 6 2).toNat = s.link.code ∧
    (readReg .status s).getLsbD 8 = s.hadBegun ∧
    ((readReg .status s).extractLsb' 9 2).toNat = s.attempt.code ∧
    (readReg .status s).getLsbD 11 = s.publish ∧ (readReg .status s).getLsbD 12 = s.readingValid ∧
    (readReg .status s).getLsbD 13 = s.sensorErr ∧ (readReg .status s).extractLsb' 14 18 = 0 ∧
    ∀ v, writeReg .status v s = s

/-- R103, R104: what a legal write does, with its frame: CMD issues the command; KEYk and IVk set four bytes; FRAME_LEN
and PT_LEN store min(v, 128); FRAME_RSSI and FRAME_SNR store v; a buffer word sets its four bytes and every other byte
of memory reads as before; a read-only register ignores the write. -/
def Obligations.WritesUpdateExactlyTheirRegister : Prop :=
  ∀ (s : State) (v : Word),
    let wr (r : Reg) := hostAccess (.write (s.cfg.hostBase + r.offset) 4 v) s
    wr .cmd = issueHost v s ∧
    (∀ k, ∃ t, wr (.key k) = .next t ∧ t = { s with kst := t.kst } ∧
      ∀ i : Fin 16, t.kst[i] = if i.val / 4 = k.val then v.extractLsb' (8 * (i.val % 4)) 8 else s.kst[i]) ∧
    (∀ k, ∃ t, wr (.iv k) = .next t ∧ t = { s with ivr := t.ivr } ∧
      ∀ i : Fin 16, t.ivr[i] = if i.val / 4 = k.val then v.extractLsb' (8 * (i.val % 4)) 8 else s.ivr[i]) ∧
    (∃ t, wr .frameLen = .next t ∧ t = { s with frameLen := t.frameLen } ∧ t.frameLen.toNat = min v.toNat 128) ∧
    (∃ t, wr .ptLen = .next t ∧ t = { s with ptLen := t.ptLen } ∧ t.ptLen.toNat = min v.toNat 128) ∧
    wr .frameRssi = .next { s with frameRssi := v } ∧ wr .frameSnr = .next { s with frameSnr := v } ∧
    (∀ k, ∃ t, wr (.frameBuf k) = .next t ∧ t = { s with mem := t.mem } ∧
      ∀ a, t.mem.read a = if 0x100 + 4 * k.val ≤ a ∧ a < 0x100 + 4 * k.val + 4
        then v.extractLsb' (8 * (a - (0x100 + 4 * k.val))) 8 else s.mem.read a) ∧
    (∀ k, ∃ t, wr (.ptBuf k) = .next t ∧ t = { s with mem := t.mem } ∧
      ∀ a, t.mem.read a = if 0x180 + 4 * k.val ≤ a ∧ a < 0x180 + 4 * k.val + 4
        then v.extractLsb' (8 * (a - (0x180 + 4 * k.val))) 8 else s.mem.read a) ∧
    ∀ r ∈ [Reg.id, .status, .lastNow, .rdIrr, .rdBatt, .rdTemp, .rdTs, .rdCsum, .linkNext, .linkBackoff, .linkJitter,
      .decCount], wr r = .next s

/-- The host sees what it wrote and nothing else: a read after a write of a storage register gives the written value
(FRAME_LEN and PT_LEN its minimum with 128), and every other register reads as before (R102, R103, R107). -/
def Obligations.ReadBackAfterWrite : Prop :=
  ∀ (s : State) (v : Word),
    (∀ k, readReg (.iv k) (writeReg (.iv k) v s) = v) ∧
    (∀ k, readReg (.frameBuf k) (writeReg (.frameBuf k) v s) = v) ∧
    (∀ k, readReg (.ptBuf k) (writeReg (.ptBuf k) v s) = v) ∧
    readReg .frameRssi (writeReg .frameRssi v s) = v ∧ readReg .frameSnr (writeReg .frameSnr v s) = v ∧
    (readReg .frameLen (writeReg .frameLen v s)).toNat = min v.toNat 128 ∧
    (readReg .ptLen (writeReg .ptLen v s)).toNat = min v.toNat 128 ∧
    ∀ r r', r' ≠ r → readReg r' (writeReg r v s) = readReg r' s

/-- R109: writes to storage registers and buffers are idempotent. -/
def Obligations.RegisterWritesAreIdempotent : Prop :=
  ∀ (r : Reg) (v : Word) (s : State), writeReg r v (writeReg r v s) = writeReg r v s

/-- R110 and R111: a step serves the first turn of the schedule, takes at most the first item of that turn's port, and
leaves the other ports' items, so each port's own order is kept; the host's earlier read data are kept. The agents' lists,
the schedule, the turn that passes when its agent has nothing to issue and the record of the host's reads are the model's
choice (logs 1, 10 and 11). -/
def Obligations.ArbiterKeepsEachPortsOrder : Prop :=
  ∀ (s t : State) (turn : Turn) (rest : List Turn), s.env.schedule = turn :: rest → step s = .next t →
    t.env.schedule = rest ∧
    t.env.host = (if turn.port = .host then s.env.host.tail else s.env.host) ∧
    t.env.radio = (if turn.port = .radio then s.env.radio.tail else s.env.radio) ∧
    t.env.network = (if turn.port = .network then s.env.network.tail else s.env.network) ∧
    t.env.time = turn.time ∧ t.env.rand = turn.rand ∧
    (t.env.hostReads = s.env.hostReads ∨ ∃ v, turn.port = .host ∧ t.env.hostReads = s.env.hostReads ++ [v])

/-! Mailbox -/

/-- R201: RADIO_POST for every N, with its frame. -/
def Obligations.RadioPostFillsTheSlot : Prop :=
  ∀ (n : Nat) (s : State), ∃ t, exec (.radioPost n) s = .next t ∧
    t = { s with slot := t.slot, slotLen := t.slotLen, slotRssi := s.env.radioRssi, slotSnr := s.env.radioSnr,
                 mbxReady := true } ∧
    t.slotLen.toNat = min n 128 ∧
    (∀ i : Fin 128, t.slot.read i.val = if i.val < min n 128 then s.env.radioData[i] else 0) ∧
    (∀ a, 128 ≤ a → t.slot.read a = s.slot.read a)

/-- R205 and R206: MBX_TAKE with a frame pending and with none, with its frame. -/
def Obligations.TakeCopiesThePendingFrame : Prop :=
  ∀ s : State,
    (s.mbxReady = true → ∃ t, exec .mbxTake s = .next t ∧
      t = { s with mem := t.mem, frameLen := s.slotLen, frameRssi := s.slotRssi, frameSnr := s.slotSnr,
                   mbxReady := false, result := .ok } ∧
      ∀ a, t.mem.read a = if 0x100 ≤ a ∧ a < 0x180 then s.slot.read (a - 0x100) else s.mem.read a) ∧
    (s.mbxReady = false → exec .mbxTake s = .next { s with frameLen := 0, result := .empty })

/-- R209: after two posts with no take between, a take gives the second frame, zeros beyond it, and the second post's
metadata. The radio's lines may change freely between the posts. -/
def Obligations.TakeAfterTwoPostsGivesTheSecond : Prop :=
  ∀ (s : State) (n1 n2 : Nat) (e2 : Env), ∃ s1 s2 t, exec (.radioPost n1) s = .next s1 ∧
    exec (.radioPost n2) { s1 with env := e2 } = .next s2 ∧ exec .mbxTake s2 = .next t ∧
    t.result = .ok ∧ t.mbxReady = false ∧ t.frameLen.toNat = min n2 128 ∧
    t.frameRssi = e2.radioRssi ∧ t.frameSnr = e2.radioSnr ∧
    ∀ i : Fin 128, t.mem.read (0x100 + i.val) = if i.val < min n2 128 then e2.radioData[i] else 0

/-- R204: only the radio port fills the slot and sets MBX_READY, and the radio port writes nothing else of the block. -/
def Obligations.OnlyTheRadioPortPosts : Prop :=
  ∀ s t : State, step s = .next t →
    (s.nextPort = some .radio →
      t = { s with slot := t.slot, slotLen := t.slotLen, slotRssi := t.slotRssi, slotSnr := t.slotSnr,
                   mbxReady := t.mbxReady, env := t.env }) ∧
    (s.nextPort ≠ some .radio →
      t.slot = s.slot ∧ t.slotLen = s.slotLen ∧ t.slotRssi = s.slotRssi ∧ t.slotSnr = s.slotSnr ∧
      (t.mbxReady = true → s.mbxReady = true))

/-! Cipher -/

/-- R221: KEY_LOAD stores the staged key once, then finishes KEY_LOCKED; the staging bytes are cleared either way. -/
def Obligations.KeyLoadStoresTheStagedKeyOnce : Prop :=
  ∀ s : State,
    (s.keyValid = false → exec .keyLoad s =
      .next { s with key := s.kst, keyValid := true, kst := Vector.replicate 16 0, result := .ok }) ∧
    (s.keyValid = true → exec .keyLoad s = .next { s with kst := Vector.replicate 16 0, result := .keyLocked })

/-- R44: only KEY_LOAD writes KEY_VALID, and only from 0 to 1; with it, the key never changes once it is loaded and
before that changes only to the staged bytes. -/
def Obligations.OnlyTheFirstKeyLoadSetsTheKey : Prop :=
  ∀ s t : State, step s = .next t →
    (s.keyValid = true → t.keyValid = true ∧ t.key = s.key) ∧
    (s.keyValid = false →
      (t.keyValid = false ∧ t.key = s.key) ∨
      (s.IssuesHostWord 0x01#32 ∧ t.keyValid = true ∧ t.key = s.kst ∧ t.result = .ok))

/-- No register, command or port reads the key out: a step in which the CBC core does not run (DEC_COUNT stays) does the
same in a state that differs only in the key and the staged bytes, and leaves states that differ only there (R76, R77). -/
def Obligations.KeyIsNotReadOut : Prop :=
  ∀ (s t : State) (k q : Block), step s = .next t → t.decCount = s.decCount →
    ∃ t', step { s with key := k, kst := q } = .next t' ∧ t' = { t with key := t'.key, kst := t'.kst }

/-- R230, R231, R239 and R240: AES_DECRYPT on every operand, with its frame. -/
def Obligations.AesDecryptOutcomes : Prop :=
  ∀ (off len : Nat) (s : State),
    let P := cbcDecrypt s.key (len / 16) s.ivr (s.frameBytes off len)
    ((len = 0 ∨ len % 16 ≠ 0 ∨ off + len > 128) →
      exec (.aesDecrypt off len) s = .next { s with result := .invalidLength }) ∧
    (0 < len → len % 16 = 0 → off + len ≤ 128 →
      (s.keyValid = false → exec (.aesDecrypt off len) s = .next { s with result := .cipherFail }) ∧
      (s.keyValid = true → unpad P = none →
        exec (.aesDecrypt off len) s = .next { s with decCount := s.decCount + 1, result := .invalidPadding }) ∧
      (∀ Q, s.keyValid = true → unpad P = some Q → ∃ t, exec (.aesDecrypt off len) s = .next t ∧
        t = { s with decCount := s.decCount + 1, ptLen := t.ptLen, mem := t.mem, result := .ok } ∧
        t.ptLen.toNat = Q.length ∧
        ∀ a, t.mem.read a = if 0x180 ≤ a ∧ a < 0x200
          then (if a - 0x180 < Q.length then Q.getD (a - 0x180) 0 else 0) else s.mem.read a))

/-- R237: plaintext block `j` is AESDec of ciphertext block `j` exclusive-ored with ciphertext block `j - 1`, and with
the IV for block 0. -/
def Obligations.CbcChainsOnTheCiphertext : Prop :=
  ∀ (k iv : Block) (n : Nat) (ct : List Byte), ct.length = 16 * n →
    (cbcDecrypt k n iv ct).length = 16 * n ∧
    ∀ j, j < n → chunk (cbcDecrypt k n iv ct) j =
      xorBlock (aesDec k (chunk ct j)) (if j = 0 then iv else chunk ct (j - 1))

/-- R238: unpadding accepts exactly a plaintext that ends in `p` bytes of value `p` with `1 <= p <= 16`, where `p` is its
last byte, and gives what stands before them; any other plaintext fails. -/
def Obligations.UnpadAcceptsExactlyPkcs7 : Prop :=
  ∀ P : List Byte, 0 < P.length → P.length % 16 = 0 →
    (∀ Q, unpad P = some Q ↔
      ∃ p, 1 ≤ p ∧ p ≤ 16 ∧ P = Q ++ List.replicate p (BitVec.ofNat 8 p)) ∧
    (unpad P = none ↔ ¬ ∃ p Q, 1 ≤ p ∧ p ≤ 16 ∧ P = Q ++ List.replicate p (BitVec.ofNat 8 p))

/-- R236: DEC_COUNT counts the runs of the CBC core that pass the key check, whether or not the padding then passes;
every command stopped before the core, and every other command, leaves it. -/
def Obligations.DecCountCountsTheCoreRuns : Prop :=
  (∀ (off len : Nat) (s t : State), exec (.aesDecrypt off len) s = .next t →
    t.decCount = s.decCount + (if t.result = .ok ∨ t.result = .invalidPadding then 1 else 0)) ∧
  (∀ s t : State, exec .processFrame s = .next t →
    t.decCount = s.decCount +
      (if t.result = .frameShort ∨ t.result = .frameAlign ∨ t.result = .cipherFail then 0 else 1)) ∧
  (∀ (i : Instr) (s t : State), (∀ off len, i ≠ .aesDecrypt off len) → i ≠ .processFrame →
    exec i s = .next t → t.decCount = s.decCount) ∧
  (∀ (w : Word) (e : Reject) (s t : State), decode .host w = .error e → issueHost w s = .next t →
    t.decCount = s.decCount)

/-- R241: the same key, IV and ciphertext give the same plaintext or the same failure, whatever the rest of the
state. -/
def Obligations.DecryptionDependsOnKeyIvAndCiphertext : Prop :=
  ∀ (off len : Nat) (s1 s2 : State), s1.keyValid = s2.keyValid → s1.key = s2.key → s1.ivr = s2.ivr →
    s1.frameBytes off len = s2.frameBytes off len →
    ∃ t1 t2, exec (.aesDecrypt off len) s1 = .next t1 ∧ exec (.aesDecrypt off len) s2 = .next t2 ∧
      t1.result = t2.result ∧
      (t1.result = .ok → t1.ptLen = t2.ptLen ∧ t1.ptBytes 0 128 = t2.ptBytes 0 128)

/-- The AES-128 inverse cipher is a bijection on 16-byte blocks for each key (R259). -/
def Obligations.AesDecIsABijection : Prop :=
  ∀ k : Block, Function.Bijective (aesDec k)

/-- R242: the round-trip law, for the standalone command and for a frame. -/
def Obligations.DecryptionInvertsEncryption : Prop :=
  ∀ (s : State) (P C : List Byte), s.keyValid = true →
    (∀ off, P.length ≤ 127 → CbcEncrypts s.key s.ivr (P ++ pad P) C → off + C.length ≤ 128 →
      s.frameBytes off C.length = C →
      ∃ t, exec (.aesDecrypt off C.length) s = .next t ∧ t.result = .ok ∧ t.ptLen.toNat = P.length ∧
        t.ptBytes 0 P.length = P) ∧
    (∀ iv, P.length ≤ 111 → CbcEncrypts s.key iv (P ++ pad P) C → s.frameLen.toNat = 16 + C.length →
      blockOfBytes (s.frameBytes 0 16) = iv → s.frameBytes 16 C.length = C →
      ∃ t, exec .processFrame s = .next t ∧ t.result ≠ .cipherFail ∧ t.result ≠ .invalidPadding ∧
        t.ptLen.toNat = P.length ∧ t.ptBytes 0 P.length = P)

/-! Codec -/

/-- R266: the three outcomes of DECODE, with the fields of R262 and its frame. -/
def Obligations.DecodeOutcomes : Prop :=
  ∀ s : State,
    let b (i : Nat) : Nat := (s.mem.read (0x180 + i)).toNat
    let sum := b 0 + b 1 + b 2 + b 3 + b 4 + b 5 + b 6 + b 7 + b 8 + b 9
    (s.ptLen.toNat ≠ 11 →
      exec .decode s = .next { s with readingValid := false, sensorErr := false, result := .sizeMismatch }) ∧
    (s.ptLen.toNat = 11 → sum % 256 ≠ b 10 →
      exec .decode s = .next { s with readingValid := false, sensorErr := false, result := .checksumMismatch }) ∧
    (s.ptLen.toNat = 11 → sum % 256 = b 10 → ∃ t, exec .decode s = .next t ∧
      t = { s with rdIrr := t.rdIrr, rdBatt := t.rdBatt, rdTemp := t.rdTemp, rdTs := t.rdTs, rdCsum := t.rdCsum,
                   readingValid := true, sensorErr := decide (b 0 = 255 ∧ b 1 = 255), result := .ok } ∧
      t.rdIrr.toNat = b 0 + 256 * b 1 ∧ t.rdBatt.toNat = b 2 + 256 * b 3 ∧
      t.rdTemp.toInt = (if b 5 < 128 then (b 4 + 256 * b 5 : Int) else (b 4 + 256 * b 5 : Int) - 65536) ∧
      t.rdTs.toNat = b 6 + 256 * b 7 + 65536 * b 8 + 16777216 * b 9 ∧ t.rdCsum.toNat = b 10)

/-- R268: the decoder law, from the encoded values back: a record that holds the little-endian bytes of four values
decodes to exactly those values when its eleventh byte is the 8-bit sum of the first ten, and fails with
CHECKSUM_MISMATCH when it is not. -/
def Obligations.RecordDecodesToTheEncodedValues : Prop :=
  ∀ (s : State) (irr batt temp : Half) (ts : Word) (csum : Byte),
    let record : List Byte := [irr.extractLsb' 0 8, irr.extractLsb' 8 8, batt.extractLsb' 0 8, batt.extractLsb' 8 8,
      temp.extractLsb' 0 8, temp.extractLsb' 8 8, ts.extractLsb' 0 8, ts.extractLsb' 8 8, ts.extractLsb' 16 8,
      ts.extractLsb' 24 8]
    s.ptLen = 11 → s.ptBytes 0 11 = record ++ [csum] →
    (csum = record.sum → ∃ t, exec .decode s = .next t ∧ t.result = .ok ∧ t.rdIrr = irr ∧ t.rdBatt = batt ∧
      t.rdTemp = temp.signExtend 32 ∧ t.rdTs = ts ∧ t.rdCsum = csum ∧ t.readingValid = true ∧
      (t.sensorErr = true ↔ irr = 0xFFFF#16)) ∧
    (csum ≠ record.sum → ∃ t, exec .decode s = .next t ∧ t.result = .checksumMismatch ∧ t.readingValid = false)

/-! Link -/

/-- R285 to R288: the three outcomes of LINK_TICK, with the backoff step of R283, R284 and R294 and its frame. -/
def Obligations.LinkTickOutcomes : Prop :=
  ∀ s : State, s.cfg.Admissible →
    let now := s.env.time.toNat
    let b := min (max (2 * s.linkBackoff.toNat) s.cfg.backoffFloor) s.cfg.backoffCeil
    let j := s.env.rand.toNat % (b / 10 + 1)
    (s.link = .connected → ∃ t, exec .linkTick s = .next t ∧
      t = { s with lastNow := s.env.time, attempt := .noAttempt, linkNext := t.linkNext, result := .ok } ∧
      t.linkNext.toNat = max s.linkNext.toNat ((now + s.cfg.guardWindow) % 2 ^ 32)) ∧
    (s.link ≠ .connected → now < s.linkNext.toNat →
      exec .linkTick s = .next { s with lastNow := s.env.time, attempt := .noAttempt, result := .ok }) ∧
    (s.link ≠ .connected → s.linkNext.toNat ≤ now → ∃ t, exec .linkTick s = .next t ∧
      t = { s with
            lastNow := s.env.time, result := .ok, link := .connecting, hadBegun := true
            attempt := if s.hadBegun then .reconnectAttempt else .beginAttempt
            netOut := s.netOut ++ [if s.hadBegun then .reconnect else .beginConnect]
            linkBackoff := t.linkBackoff, linkJitter := t.linkJitter, linkNext := t.linkNext } ∧
      t.linkBackoff.toNat = b ∧ t.linkJitter.toNat = j ∧ t.linkNext.toNat = (now + b + j) % 2 ^ 32 ∧
      now + b + j ≤ now + s.cfg.backoffCeil + s.cfg.backoffCeil / 10)

/-- R289 to R292: LINK_EVENT in every state, with its frame. -/
def Obligations.LinkEventOutcomes : Prop :=
  ∀ s : State, s.cfg.Admissible →
    (s.link = .connected → exec (.linkEvent true) s = .next { s with lastNow := s.env.time }) ∧
    (s.link ≠ .connected → ∃ t, exec (.linkEvent true) s = .next t ∧
      t = { s with lastNow := s.env.time, link := .connected, linkBackoff := t.linkBackoff, linkNext := t.linkNext } ∧
      t.linkBackoff.toNat = s.cfg.backoffFloor ∧
      t.linkNext.toNat = (s.env.time.toNat + s.cfg.guardWindow) % 2 ^ 32) ∧
    (s.link = .connected → ∃ t, exec (.linkEvent false) s = .next t ∧
      t = { s with lastNow := s.env.time, link := .disconnected, linkBackoff := t.linkBackoff } ∧
      t.linkBackoff.toNat = (if s.linkBackoff = 0 then s.cfg.backoffFloor else s.linkBackoff.toNat)) ∧
    (s.link ≠ .connected →
      exec (.linkEvent false) s = .next { s with lastNow := s.env.time, link := .disconnected })

/-- R293: FORCE_RECONNECT, with its frame; STATUS.LINK is not changed. -/
def Obligations.ForceReconnectClearsTheSchedule : Prop :=
  ∀ s : State,
    exec .forceReconnect s = .next { s with hadBegun := false, linkBackoff := 0, linkNext := 0, result := .ok }

/-- R295: the first-tick law. -/
def Obligations.FirstTickLaw : Prop :=
  ∀ s : State, s.cfg.Admissible → s.link = .disconnected → s.linkBackoff = 0 → s.linkNext = 0 → s.env.time = 0 →
    ∃ t, exec .linkTick s = .next t ∧ t.netOut.length = s.netOut.length + 1 ∧ t.link = .connecting ∧
      t.linkNext.toNat = s.cfg.backoffFloor + t.linkJitter.toNat ∧
      t.linkJitter.toNat ≤ s.cfg.backoffFloor / 10

/-- R296 and R297: from "unset", repeated attempts made on their deadlines double the interval from the floor up to the
ceiling and never exceed it, whatever the jitter draws; each makes exactly one attempt. -/
def Obligations.RepeatedTicksDoubleUpToTheCeiling : Prop :=
  ∀ (s : State) (rs : List Word) (r : Word), s.cfg.Admissible → s.link ≠ .connected → s.linkBackoff = 0 →
    let t := (rs ++ [r]).foldl retryTick s
    t.linkBackoff.toNat = min (s.cfg.backoffFloor * 2 ^ rs.length) s.cfg.backoffCeil ∧
    t.linkBackoff.toNat ≤ s.cfg.backoffCeil ∧ t.link = .connecting ∧
    t.netOut.length = s.netOut.length + rs.length + 1

/-- The event history grows by at most one event a step, and only by a LINK_TICK made while not Connected and not before
the deadline; the event is BEGIN when HAD_BEGUN is 0 and RECONNECT when it is 1 (R78, R286, R287). -/
def Obligations.AttemptsComeOnlyFromDueTicks : Prop :=
  ∀ (s t : State), step s = .next t →
    t.netOut = s.netOut ∨
    (s.IssuesHostWord 0x05#32 ∧ s.link ≠ .connected ∧ s.linkNext.toNat ≤ t.env.time.toNat ∧
      t.netOut = s.netOut ++ [if s.hadBegun then .reconnect else .beginConnect] ∧
      t.link = .connecting ∧ t.hadBegun = true)

/-- R280: Connected is entered and left by a network turn only, and Connecting is entered only by a LINK_TICK that
issues an attempt; from reset the state is Disconnected. -/
def Obligations.LinkTransitions : Prop :=
  State.reset.link = .disconnected ∧
  ∀ (s t : State), step s = .next t → t.link ≠ s.link →
    ((s.link = .connected ∨ t.link = .connected) → s.nextPort = some .network) ∧
    (t.link = .connecting → s.IssuesHostWord 0x05#32 ∧ t.netOut.length = s.netOut.length + 1) ∧
    (t.link = .disconnected → s.nextPort = some .network)

/-! Pipeline -/

/-- R312: the framing check, before the key is looked at, with its frame; the lengths up to 128 that pass are 32, 48, 64,
80, 96, 112 and 128, and their ciphertext is 16 to 112 bytes. -/
def Obligations.FramingIsCheckedFirst : Prop :=
  (∀ s : State,
    (s.frameLen.toNat < 32 → exec .processFrame s = .next { s with publish := false, result := .frameShort }) ∧
    (32 ≤ s.frameLen.toNat → (s.frameLen.toNat - 16) % 16 ≠ 0 →
      exec .processFrame s = .next { s with publish := false, result := .frameAlign })) ∧
  (∀ L, L ≤ 128 → ((32 ≤ L ∧ (L - 16) % 16 = 0) ↔ L ∈ [32, 48, 64, 80, 96, 112, 128]) ∧
    (32 ≤ L → 16 ≤ L - 16 ∧ L - 16 ≤ 112))

/-- R311 and R313: a frame that passes the framing check reports the first failing stage in the order key, padding, record
size, checksum, with the writes of the stages before it; on success the reading is latched. With its frame. -/
def Obligations.ProcessFrameStages : Prop :=
  ∀ s : State, 32 ≤ s.frameLen.toNat → s.frameLen.toNat ≤ 128 → (s.frameLen.toNat - 16) % 16 = 0 →
    let ct := s.frameBytes 16 (s.frameLen.toNat - 16)
    let P := cbcDecrypt s.key (ct.length / 16) (blockOfBytes (s.frameBytes 0 16)) ct
    (s.keyValid = false → exec .processFrame s = .next { s with publish := false, result := .cipherFail }) ∧
    (s.keyValid = true → unpad P = none → exec .processFrame s =
      .next { s with publish := false, decCount := s.decCount + 1, result := .invalidPadding }) ∧
    (∀ Q, s.keyValid = true → unpad P = some Q → ∃ t, exec .processFrame s = .next t ∧
      t.decCount = s.decCount + 1 ∧ t.ptLen.toNat = Q.length ∧
      (∀ a, t.mem.read a = if 0x180 ≤ a ∧ a < 0x200
        then (if a - 0x180 < Q.length then Q.getD (a - 0x180) 0 else 0) else s.mem.read a) ∧
      (Q.length ≠ 11 →
        t = { s with publish := false, decCount := t.decCount, ptLen := t.ptLen, mem := t.mem,
                     readingValid := false, sensorErr := false, result := .sizeMismatch }) ∧
      (Q.length = 11 → sum8 Q 0 10 ≠ (Q.getD 10 0).toNat →
        t = { s with publish := false, decCount := t.decCount, ptLen := t.ptLen, mem := t.mem,
                     readingValid := false, sensorErr := false, result := .checksumMismatch }) ∧
      (Q.length = 11 → sum8 Q 0 10 = (Q.getD 10 0).toNat →
        t = { s with publish := decide (s.link = .connected), decCount := t.decCount, ptLen := t.ptLen, mem := t.mem,
                     readingValid := true, sensorErr := decide (le16 Q 0 = 0xFFFF), result := .ok
                     rdIrr := BitVec.ofNat 16 (le16 Q 0), rdBatt := BitVec.ofNat 16 (le16 Q 2)
                     rdTemp := (BitVec.ofNat 16 (le16 Q 4)).signExtend 32, rdTs := BitVec.ofNat 32 (le32 Q 6)
                     rdCsum := Q.getD 10 0 }))

/-- R315: PUBLISH is 1 after a PROCESS_FRAME exactly when its frame decoded and LINK was Connected; no other command
changes it. -/
def Obligations.PublishGate : Prop :=
  (∀ s t : State, exec .processFrame s = .next t → (t.publish = true ↔ t.result = .ok ∧ s.link = .connected)) ∧
  (∀ (i : Instr) (s t : State), i ≠ .processFrame → exec i s = .next t → t.publish = s.publish)

/-- R317: NOP finishes OK and changes nothing else. -/
def Obligations.NopOnlyFinishes : Prop :=
  ∀ s : State, exec .nop s = .next { s with result := .ok }

/-- R319: a POLL with an empty mailbox: the take finishes EMPTY and sets FRAME_LEN = 0, and the PROCESS_FRAME of the same
POLL finishes FRAME_SHORT with PUBLISH = 0, DEC_COUNT and every byte of memory as before. -/
def Obligations.PollOfAnEmptyMailbox : Prop :=
  ∀ s : State, s.mbxReady = false → ∃ t1 t2 t3, exec .linkTick s = .next t1 ∧ exec .mbxTake t1 = .next t2 ∧
    exec .processFrame t2 = .next t3 ∧ t2.result = .empty ∧ t2.frameLen = 0 ∧ t3.result = .frameShort ∧
    t3.publish = false ∧ t3.decCount = s.decCount ∧ ∀ a, t3.mem.read a = s.mem.read a

/-! The whole machine -/

/-- Every step keeps the invariants of R91, from every state that has them; with them, what R51 and R61 say SENSOR_ERR and
RD_TEMP hold, and the canonical form of the two memories, which is the model's (log 7). -/
def Obligations.EveryStepKeepsTheInvariants : Prop :=
  ∀ s t : State, s.Inv → step s = .next t → t.Inv

/-- The invariants hold at reset. -/
def Obligations.ResetHasTheInvariants : Prop := State.reset.Inv

/-- R90: every state element at its reset value. -/
def Obligations.ResetValues : Prop :=
  (∀ r, r ≠ .id → readReg r State.reset = 0) ∧ State.reset.link = .disconnected ∧ State.reset.keyValid = false ∧
  State.reset.key = Vector.replicate 16 0 ∧ State.reset.kst = Vector.replicate 16 0 ∧
  (∀ a, State.reset.slot.read a = 0) ∧ State.reset.slotLen = 0 ∧ State.reset.slotRssi = 0 ∧
  State.reset.slotSnr = 0 ∧ State.reset.netOut = []

/-- R413: the block has no halted state: with an admissible configuration and a host that issues legal accesses only, no
run of any length stops, whatever words arrive on any port. -/
def Obligations.NoInputStopsTheBlock : Prop :=
  ∀ s : State, s.Served → s.Safe

/-- The configuration is fixed, and a step on one outside the bounds of R10 is refused. That the parameters stand in State
and that it is `step` that refuses them is the model's choice (log 3). -/
def Obligations.ConfigurationIsFixedAndChecked : Prop :=
  (∀ s t : State, step s = .next t → t.cfg = s.cfg) ∧
  (∀ s : State, ¬ (1 ≤ s.cfg.backoffFloor ∧ s.cfg.backoffFloor ≤ s.cfg.backoffCeil ∧
      s.cfg.backoffCeil + s.cfg.backoffCeil / 10 < 2 ^ 32 ∧ s.cfg.guardWindow < 2 ^ 32) →
    step s = .refused .configurationOutOfBounds)

/-- R43: RESULT is written by host commands only: a radio turn, a network turn and a host turn that writes no CMD leave
it; a read of STATUS[3:0] never returns 11 to 15. -/
def Obligations.ResultIsWrittenByHostCommandsOnly : Prop :=
  (∀ s t : State, step s = .next t → t.result ≠ s.result → ∃ w, s.IssuesHostWord w) ∧
  (∀ s : State, ((readReg .status s).extractLsb' 0 4).toNat ≤ 10)

/-- R425: a network turn writes STATUS.LINK, LINK_BACKOFF, LINK_NEXT and LAST_NOW and nothing else of the block. -/
def Obligations.NetworkPortWritesOnlyTheLink : Prop :=
  ∀ s t : State, s.nextPort = some .network → step s = .next t →
    t = { s with link := t.link, linkBackoff := t.linkBackoff, linkNext := t.linkNext, lastNow := t.lastNow,
                 env := t.env }
end

