-- ==== Sys2Proof/Laws/Decode.lean ====
section
/-! SUPPORT. The encoded words as numbers, and the two masks of the opcode table read as fields. -/

namespace Sys2Proof

/-- The word of AES_DECRYPT as a number (R151). -/
theorem encode_aesDecrypt_toNat (off len : Nat) (h1 : off ≤ 255) (h2 : len ≤ 255) :
    (encode (.aesDecrypt off len)).toNat = 2 + off * 2 ^ 8 + len * 2 ^ 16 := by
  have ho : off <<< 8 < 2 ^ 16 := by rw [Nat.shiftLeft_eq]; omega
  have hl : len <<< 16 < 2 ^ 32 := by rw [Nat.shiftLeft_eq]; omega
  simp only [encode, BitVec.toNat_or, BitVec.toNat_shiftLeft, BitVec.toNat_ofNat]
  rw [Nat.mod_eq_of_lt (show off < 2 ^ 32 by omega), Nat.mod_eq_of_lt (show len < 2 ^ 32 by omega),
    Nat.mod_eq_of_lt (show off <<< 8 < 2 ^ 32 by omega), Nat.mod_eq_of_lt hl, Nat.or_comm,
    ← Nat.shiftLeft_add_eq_or_of_lt (Nat.or_lt_two_pow (by norm_num) ho), Nat.or_comm,
    ← Nat.shiftLeft_add_eq_or_of_lt (show 2 % 2 ^ 32 < 2 ^ 8 by norm_num)]
  simp only [Nat.shiftLeft_eq]
  omega

/-- The word of RADIO_POST as a number (R151). -/
theorem encode_radioPost_toNat (n : Nat) (h : n ≤ 65535) :
    (encode (.radioPost n)).toNat = 16 + n * 2 ^ 8 := by
  have hn : n <<< 8 < 2 ^ 32 := by rw [Nat.shiftLeft_eq]; omega
  simp only [encode, BitVec.toNat_or, BitVec.toNat_shiftLeft, BitVec.toNat_ofNat]
  rw [Nat.mod_eq_of_lt (show n < 2 ^ 32 by omega), Nat.mod_eq_of_lt hn, Nat.or_comm,
    ← Nat.shiftLeft_add_eq_or_of_lt (show 16 % 2 ^ 32 < 2 ^ 8 by norm_num)]
  simp only [Nat.shiftLeft_eq]
  omega

/-- The mask 0xFF0000FF keeps bits [7:0] and [31:24]. -/
theorem and_opMask (w : Word) : w &&& 0xFF0000FF#32 =
    BitVec.ofNat 32 (w.toNat % 2 ^ 8 + 2 ^ 24 * (w.toNat / 2 ^ 24)) := by
  apply BitVec.eq_of_getLsbD_eq
  intro i hi
  have hm : ∀ i, i < 32 → (0xFF0000FF#32).getLsbD i = decide (i < 8 ∨ 24 ≤ i) := by decide
  rw [BitVec.getLsbD_and, hm i hi, BitVec.getLsbD_ofNat, BitVec.getLsbD,
    Nat.add_comm, Nat.two_pow_add_eq_or_of_lt (lt_of_lt_of_le (Nat.mod_lt _ (by norm_num)) (by norm_num)),
    Nat.testBit_or, Nat.testBit_two_pow_mul, Nat.testBit_div_two_pow, Nat.testBit_mod_two_pow]
  by_cases h1 : i < 8
  · simp [h1, hi, show ¬ 24 ≤ i by omega]
  · by_cases h2 : 24 ≤ i
    · simp [h1, h2, hi, show i - 24 + 24 = i by omega]
    · simp [h1, h2]

/-- A word under the mask 0xFF0000FF is a one-byte match exactly when its OP is the match and its RSV is 0. -/
theorem and_opMask_eq (w : Word) (v : Nat) (hv : v < 256) :
    w &&& 0xFF0000FF#32 = BitVec.ofNat 32 v ↔ w.toNat % 2 ^ 8 = v ∧ w.toNat / 2 ^ 24 = 0 := by
  have hw := w.isLt
  rw [and_opMask, ← BitVec.toNat_inj, BitVec.toNat_ofNat, BitVec.toNat_ofNat]
  omega

end Sys2Proof
end

