-- ==== Sys2Proof/Laws/State.lean ====
section
/-! SUPPORT. One lemma per field per shared update of the state, so that no proof unfolds a record update. -/

namespace Sys2Proof.Machine

/-! `State.finish` -/

@[simp] theorem finish_cfg (c : ResultCode) (s : State) : (s.finish c).cfg = s.cfg := rfl
@[simp] theorem finish_result (c : ResultCode) (s : State) : (s.finish c).result = c := rfl
@[simp] theorem finish_keyValid (c : ResultCode) (s : State) : (s.finish c).keyValid = s.keyValid := rfl
@[simp] theorem finish_mbxReady (c : ResultCode) (s : State) : (s.finish c).mbxReady = s.mbxReady := rfl
@[simp] theorem finish_link (c : ResultCode) (s : State) : (s.finish c).link = s.link := rfl
@[simp] theorem finish_hadBegun (c : ResultCode) (s : State) : (s.finish c).hadBegun = s.hadBegun := rfl
@[simp] theorem finish_attempt (c : ResultCode) (s : State) : (s.finish c).attempt = s.attempt := rfl
@[simp] theorem finish_publish (c : ResultCode) (s : State) : (s.finish c).publish = s.publish := rfl
@[simp] theorem finish_readingValid (c : ResultCode) (s : State) : (s.finish c).readingValid = s.readingValid := rfl
@[simp] theorem finish_sensorErr (c : ResultCode) (s : State) : (s.finish c).sensorErr = s.sensorErr := rfl
@[simp] theorem finish_lastNow (c : ResultCode) (s : State) : (s.finish c).lastNow = s.lastNow := rfl
@[simp] theorem finish_kst (c : ResultCode) (s : State) : (s.finish c).kst = s.kst := rfl
@[simp] theorem finish_ivr (c : ResultCode) (s : State) : (s.finish c).ivr = s.ivr := rfl
@[simp] theorem finish_frameLen (c : ResultCode) (s : State) : (s.finish c).frameLen = s.frameLen := rfl
@[simp] theorem finish_frameRssi (c : ResultCode) (s : State) : (s.finish c).frameRssi = s.frameRssi := rfl
@[simp] theorem finish_frameSnr (c : ResultCode) (s : State) : (s.finish c).frameSnr = s.frameSnr := rfl
@[simp] theorem finish_ptLen (c : ResultCode) (s : State) : (s.finish c).ptLen = s.ptLen := rfl
@[simp] theorem finish_rdIrr (c : ResultCode) (s : State) : (s.finish c).rdIrr = s.rdIrr := rfl
@[simp] theorem finish_rdBatt (c : ResultCode) (s : State) : (s.finish c).rdBatt = s.rdBatt := rfl
@[simp] theorem finish_rdTemp (c : ResultCode) (s : State) : (s.finish c).rdTemp = s.rdTemp := rfl
@[simp] theorem finish_rdTs (c : ResultCode) (s : State) : (s.finish c).rdTs = s.rdTs := rfl
@[simp] theorem finish_rdCsum (c : ResultCode) (s : State) : (s.finish c).rdCsum = s.rdCsum := rfl
@[simp] theorem finish_linkNext (c : ResultCode) (s : State) : (s.finish c).linkNext = s.linkNext := rfl
@[simp] theorem finish_linkBackoff (c : ResultCode) (s : State) : (s.finish c).linkBackoff = s.linkBackoff := rfl
@[simp] theorem finish_linkJitter (c : ResultCode) (s : State) : (s.finish c).linkJitter = s.linkJitter := rfl
@[simp] theorem finish_decCount (c : ResultCode) (s : State) : (s.finish c).decCount = s.decCount := rfl
@[simp] theorem finish_mem (c : ResultCode) (s : State) : (s.finish c).mem = s.mem := rfl
@[simp] theorem finish_slot (c : ResultCode) (s : State) : (s.finish c).slot = s.slot := rfl
@[simp] theorem finish_slotLen (c : ResultCode) (s : State) : (s.finish c).slotLen = s.slotLen := rfl
@[simp] theorem finish_slotRssi (c : ResultCode) (s : State) : (s.finish c).slotRssi = s.slotRssi := rfl
@[simp] theorem finish_slotSnr (c : ResultCode) (s : State) : (s.finish c).slotSnr = s.slotSnr := rfl
@[simp] theorem finish_key (c : ResultCode) (s : State) : (s.finish c).key = s.key := rfl
@[simp] theorem finish_netOut (c : ResultCode) (s : State) : (s.finish c).netOut = s.netOut := rfl
@[simp] theorem finish_env (c : ResultCode) (s : State) : (s.finish c).env = s.env := rfl

/-! `State.storeWindow` -/

@[simp] theorem storeWindow_cfg (off : Nat) (bs : List Byte) (s : State) : (s.storeWindow off bs).cfg = s.cfg := rfl
@[simp] theorem storeWindow_result (off : Nat) (bs : List Byte) (s : State) : (s.storeWindow off bs).result = s.result := rfl
@[simp] theorem storeWindow_keyValid (off : Nat) (bs : List Byte) (s : State) : (s.storeWindow off bs).keyValid = s.keyValid := rfl
@[simp] theorem storeWindow_mbxReady (off : Nat) (bs : List Byte) (s : State) : (s.storeWindow off bs).mbxReady = s.mbxReady := rfl
@[simp] theorem storeWindow_link (off : Nat) (bs : List Byte) (s : State) : (s.storeWindow off bs).link = s.link := rfl
@[simp] theorem storeWindow_hadBegun (off : Nat) (bs : List Byte) (s : State) : (s.storeWindow off bs).hadBegun = s.hadBegun := rfl
@[simp] theorem storeWindow_attempt (off : Nat) (bs : List Byte) (s : State) : (s.storeWindow off bs).attempt = s.attempt := rfl
@[simp] theorem storeWindow_publish (off : Nat) (bs : List Byte) (s : State) : (s.storeWindow off bs).publish = s.publish := rfl
@[simp] theorem storeWindow_readingValid (off : Nat) (bs : List Byte) (s : State) : (s.storeWindow off bs).readingValid = s.readingValid := rfl
@[simp] theorem storeWindow_sensorErr (off : Nat) (bs : List Byte) (s : State) : (s.storeWindow off bs).sensorErr = s.sensorErr := rfl
@[simp] theorem storeWindow_lastNow (off : Nat) (bs : List Byte) (s : State) : (s.storeWindow off bs).lastNow = s.lastNow := rfl
@[simp] theorem storeWindow_kst (off : Nat) (bs : List Byte) (s : State) : (s.storeWindow off bs).kst = s.kst := rfl
@[simp] theorem storeWindow_ivr (off : Nat) (bs : List Byte) (s : State) : (s.storeWindow off bs).ivr = s.ivr := rfl
@[simp] theorem storeWindow_frameLen (off : Nat) (bs : List Byte) (s : State) : (s.storeWindow off bs).frameLen = s.frameLen := rfl
@[simp] theorem storeWindow_frameRssi (off : Nat) (bs : List Byte) (s : State) : (s.storeWindow off bs).frameRssi = s.frameRssi := rfl
@[simp] theorem storeWindow_frameSnr (off : Nat) (bs : List Byte) (s : State) : (s.storeWindow off bs).frameSnr = s.frameSnr := rfl
@[simp] theorem storeWindow_ptLen (off : Nat) (bs : List Byte) (s : State) : (s.storeWindow off bs).ptLen = s.ptLen := rfl
@[simp] theorem storeWindow_rdIrr (off : Nat) (bs : List Byte) (s : State) : (s.storeWindow off bs).rdIrr = s.rdIrr := rfl
@[simp] theorem storeWindow_rdBatt (off : Nat) (bs : List Byte) (s : State) : (s.storeWindow off bs).rdBatt = s.rdBatt := rfl
@[simp] theorem storeWindow_rdTemp (off : Nat) (bs : List Byte) (s : State) : (s.storeWindow off bs).rdTemp = s.rdTemp := rfl
@[simp] theorem storeWindow_rdTs (off : Nat) (bs : List Byte) (s : State) : (s.storeWindow off bs).rdTs = s.rdTs := rfl
@[simp] theorem storeWindow_rdCsum (off : Nat) (bs : List Byte) (s : State) : (s.storeWindow off bs).rdCsum = s.rdCsum := rfl
@[simp] theorem storeWindow_linkNext (off : Nat) (bs : List Byte) (s : State) : (s.storeWindow off bs).linkNext = s.linkNext := rfl
@[simp] theorem storeWindow_linkBackoff (off : Nat) (bs : List Byte) (s : State) : (s.storeWindow off bs).linkBackoff = s.linkBackoff := rfl
@[simp] theorem storeWindow_linkJitter (off : Nat) (bs : List Byte) (s : State) : (s.storeWindow off bs).linkJitter = s.linkJitter := rfl
@[simp] theorem storeWindow_decCount (off : Nat) (bs : List Byte) (s : State) : (s.storeWindow off bs).decCount = s.decCount := rfl
@[simp] theorem storeWindow_mem (off : Nat) (bs : List Byte) (s : State) : (s.storeWindow off bs).mem = s.mem.writeBytes off bs := rfl
@[simp] theorem storeWindow_slot (off : Nat) (bs : List Byte) (s : State) : (s.storeWindow off bs).slot = s.slot := rfl
@[simp] theorem storeWindow_slotLen (off : Nat) (bs : List Byte) (s : State) : (s.storeWindow off bs).slotLen = s.slotLen := rfl
@[simp] theorem storeWindow_slotRssi (off : Nat) (bs : List Byte) (s : State) : (s.storeWindow off bs).slotRssi = s.slotRssi := rfl
@[simp] theorem storeWindow_slotSnr (off : Nat) (bs : List Byte) (s : State) : (s.storeWindow off bs).slotSnr = s.slotSnr := rfl
@[simp] theorem storeWindow_key (off : Nat) (bs : List Byte) (s : State) : (s.storeWindow off bs).key = s.key := rfl
@[simp] theorem storeWindow_netOut (off : Nat) (bs : List Byte) (s : State) : (s.storeWindow off bs).netOut = s.netOut := rfl
@[simp] theorem storeWindow_env (off : Nat) (bs : List Byte) (s : State) : (s.storeWindow off bs).env = s.env := rfl

/-! `State.dropReading` -/

@[simp] theorem dropReading_cfg (s : State) : (s.dropReading).cfg = s.cfg := rfl
@[simp] theorem dropReading_result (s : State) : (s.dropReading).result = s.result := rfl
@[simp] theorem dropReading_keyValid (s : State) : (s.dropReading).keyValid = s.keyValid := rfl
@[simp] theorem dropReading_mbxReady (s : State) : (s.dropReading).mbxReady = s.mbxReady := rfl
@[simp] theorem dropReading_link (s : State) : (s.dropReading).link = s.link := rfl
@[simp] theorem dropReading_hadBegun (s : State) : (s.dropReading).hadBegun = s.hadBegun := rfl
@[simp] theorem dropReading_attempt (s : State) : (s.dropReading).attempt = s.attempt := rfl
@[simp] theorem dropReading_publish (s : State) : (s.dropReading).publish = s.publish := rfl
@[simp] theorem dropReading_readingValid (s : State) : (s.dropReading).readingValid = false := rfl
@[simp] theorem dropReading_sensorErr (s : State) : (s.dropReading).sensorErr = false := rfl
@[simp] theorem dropReading_lastNow (s : State) : (s.dropReading).lastNow = s.lastNow := rfl
@[simp] theorem dropReading_kst (s : State) : (s.dropReading).kst = s.kst := rfl
@[simp] theorem dropReading_ivr (s : State) : (s.dropReading).ivr = s.ivr := rfl
@[simp] theorem dropReading_frameLen (s : State) : (s.dropReading).frameLen = s.frameLen := rfl
@[simp] theorem dropReading_frameRssi (s : State) : (s.dropReading).frameRssi = s.frameRssi := rfl
@[simp] theorem dropReading_frameSnr (s : State) : (s.dropReading).frameSnr = s.frameSnr := rfl
@[simp] theorem dropReading_ptLen (s : State) : (s.dropReading).ptLen = s.ptLen := rfl
@[simp] theorem dropReading_rdIrr (s : State) : (s.dropReading).rdIrr = s.rdIrr := rfl
@[simp] theorem dropReading_rdBatt (s : State) : (s.dropReading).rdBatt = s.rdBatt := rfl
@[simp] theorem dropReading_rdTemp (s : State) : (s.dropReading).rdTemp = s.rdTemp := rfl
@[simp] theorem dropReading_rdTs (s : State) : (s.dropReading).rdTs = s.rdTs := rfl
@[simp] theorem dropReading_rdCsum (s : State) : (s.dropReading).rdCsum = s.rdCsum := rfl
@[simp] theorem dropReading_linkNext (s : State) : (s.dropReading).linkNext = s.linkNext := rfl
@[simp] theorem dropReading_linkBackoff (s : State) : (s.dropReading).linkBackoff = s.linkBackoff := rfl
@[simp] theorem dropReading_linkJitter (s : State) : (s.dropReading).linkJitter = s.linkJitter := rfl
@[simp] theorem dropReading_decCount (s : State) : (s.dropReading).decCount = s.decCount := rfl
@[simp] theorem dropReading_mem (s : State) : (s.dropReading).mem = s.mem := rfl
@[simp] theorem dropReading_slot (s : State) : (s.dropReading).slot = s.slot := rfl
@[simp] theorem dropReading_slotLen (s : State) : (s.dropReading).slotLen = s.slotLen := rfl
@[simp] theorem dropReading_slotRssi (s : State) : (s.dropReading).slotRssi = s.slotRssi := rfl
@[simp] theorem dropReading_slotSnr (s : State) : (s.dropReading).slotSnr = s.slotSnr := rfl
@[simp] theorem dropReading_key (s : State) : (s.dropReading).key = s.key := rfl
@[simp] theorem dropReading_netOut (s : State) : (s.dropReading).netOut = s.netOut := rfl
@[simp] theorem dropReading_env (s : State) : (s.dropReading).env = s.env := rfl

/-! `State.latchReading` -/

@[simp] theorem latchReading_cfg (B : List Byte) (s : State) : (s.latchReading B).cfg = s.cfg := rfl
@[simp] theorem latchReading_result (B : List Byte) (s : State) : (s.latchReading B).result = s.result := rfl
@[simp] theorem latchReading_keyValid (B : List Byte) (s : State) : (s.latchReading B).keyValid = s.keyValid := rfl
@[simp] theorem latchReading_mbxReady (B : List Byte) (s : State) : (s.latchReading B).mbxReady = s.mbxReady := rfl
@[simp] theorem latchReading_link (B : List Byte) (s : State) : (s.latchReading B).link = s.link := rfl
@[simp] theorem latchReading_hadBegun (B : List Byte) (s : State) : (s.latchReading B).hadBegun = s.hadBegun := rfl
@[simp] theorem latchReading_attempt (B : List Byte) (s : State) : (s.latchReading B).attempt = s.attempt := rfl
@[simp] theorem latchReading_publish (B : List Byte) (s : State) : (s.latchReading B).publish = s.publish := rfl
@[simp] theorem latchReading_readingValid (B : List Byte) (s : State) : (s.latchReading B).readingValid = true := rfl
@[simp] theorem latchReading_sensorErr (B : List Byte) (s : State) : (s.latchReading B).sensorErr = (le16 B 0 == irrSentinel) := rfl
@[simp] theorem latchReading_lastNow (B : List Byte) (s : State) : (s.latchReading B).lastNow = s.lastNow := rfl
@[simp] theorem latchReading_kst (B : List Byte) (s : State) : (s.latchReading B).kst = s.kst := rfl
@[simp] theorem latchReading_ivr (B : List Byte) (s : State) : (s.latchReading B).ivr = s.ivr := rfl
@[simp] theorem latchReading_frameLen (B : List Byte) (s : State) : (s.latchReading B).frameLen = s.frameLen := rfl
@[simp] theorem latchReading_frameRssi (B : List Byte) (s : State) : (s.latchReading B).frameRssi = s.frameRssi := rfl
@[simp] theorem latchReading_frameSnr (B : List Byte) (s : State) : (s.latchReading B).frameSnr = s.frameSnr := rfl
@[simp] theorem latchReading_ptLen (B : List Byte) (s : State) : (s.latchReading B).ptLen = s.ptLen := rfl
@[simp] theorem latchReading_rdIrr (B : List Byte) (s : State) : (s.latchReading B).rdIrr = BitVec.ofNat 16 (le16 B 0) := rfl
@[simp] theorem latchReading_rdBatt (B : List Byte) (s : State) : (s.latchReading B).rdBatt = BitVec.ofNat 16 (le16 B 2) := rfl
@[simp] theorem latchReading_rdTemp (B : List Byte) (s : State) : (s.latchReading B).rdTemp = sext32 (BitVec.ofNat 16 (le16 B 4)) := rfl
@[simp] theorem latchReading_rdTs (B : List Byte) (s : State) : (s.latchReading B).rdTs = BitVec.ofNat 32 (le32 B 6) := rfl
@[simp] theorem latchReading_rdCsum (B : List Byte) (s : State) : (s.latchReading B).rdCsum = B.getD 10 0 := rfl
@[simp] theorem latchReading_linkNext (B : List Byte) (s : State) : (s.latchReading B).linkNext = s.linkNext := rfl
@[simp] theorem latchReading_linkBackoff (B : List Byte) (s : State) : (s.latchReading B).linkBackoff = s.linkBackoff := rfl
@[simp] theorem latchReading_linkJitter (B : List Byte) (s : State) : (s.latchReading B).linkJitter = s.linkJitter := rfl
@[simp] theorem latchReading_decCount (B : List Byte) (s : State) : (s.latchReading B).decCount = s.decCount := rfl
@[simp] theorem latchReading_mem (B : List Byte) (s : State) : (s.latchReading B).mem = s.mem := rfl
@[simp] theorem latchReading_slot (B : List Byte) (s : State) : (s.latchReading B).slot = s.slot := rfl
@[simp] theorem latchReading_slotLen (B : List Byte) (s : State) : (s.latchReading B).slotLen = s.slotLen := rfl
@[simp] theorem latchReading_slotRssi (B : List Byte) (s : State) : (s.latchReading B).slotRssi = s.slotRssi := rfl
@[simp] theorem latchReading_slotSnr (B : List Byte) (s : State) : (s.latchReading B).slotSnr = s.slotSnr := rfl
@[simp] theorem latchReading_key (B : List Byte) (s : State) : (s.latchReading B).key = s.key := rfl
@[simp] theorem latchReading_netOut (B : List Byte) (s : State) : (s.latchReading B).netOut = s.netOut := rfl
@[simp] theorem latchReading_env (B : List Byte) (s : State) : (s.latchReading B).env = s.env := rfl

/-! `State.returnRead` -/

@[simp] theorem returnRead_cfg (v : Word) (s : State) : (s.returnRead v).cfg = s.cfg := rfl
@[simp] theorem returnRead_result (v : Word) (s : State) : (s.returnRead v).result = s.result := rfl
@[simp] theorem returnRead_keyValid (v : Word) (s : State) : (s.returnRead v).keyValid = s.keyValid := rfl
@[simp] theorem returnRead_mbxReady (v : Word) (s : State) : (s.returnRead v).mbxReady = s.mbxReady := rfl
@[simp] theorem returnRead_link (v : Word) (s : State) : (s.returnRead v).link = s.link := rfl
@[simp] theorem returnRead_hadBegun (v : Word) (s : State) : (s.returnRead v).hadBegun = s.hadBegun := rfl
@[simp] theorem returnRead_attempt (v : Word) (s : State) : (s.returnRead v).attempt = s.attempt := rfl
@[simp] theorem returnRead_publish (v : Word) (s : State) : (s.returnRead v).publish = s.publish := rfl
@[simp] theorem returnRead_readingValid (v : Word) (s : State) : (s.returnRead v).readingValid = s.readingValid := rfl
@[simp] theorem returnRead_sensorErr (v : Word) (s : State) : (s.returnRead v).sensorErr = s.sensorErr := rfl
@[simp] theorem returnRead_lastNow (v : Word) (s : State) : (s.returnRead v).lastNow = s.lastNow := rfl
@[simp] theorem returnRead_kst (v : Word) (s : State) : (s.returnRead v).kst = s.kst := rfl
@[simp] theorem returnRead_ivr (v : Word) (s : State) : (s.returnRead v).ivr = s.ivr := rfl
@[simp] theorem returnRead_frameLen (v : Word) (s : State) : (s.returnRead v).frameLen = s.frameLen := rfl
@[simp] theorem returnRead_frameRssi (v : Word) (s : State) : (s.returnRead v).frameRssi = s.frameRssi := rfl
@[simp] theorem returnRead_frameSnr (v : Word) (s : State) : (s.returnRead v).frameSnr = s.frameSnr := rfl
@[simp] theorem returnRead_ptLen (v : Word) (s : State) : (s.returnRead v).ptLen = s.ptLen := rfl
@[simp] theorem returnRead_rdIrr (v : Word) (s : State) : (s.returnRead v).rdIrr = s.rdIrr := rfl
@[simp] theorem returnRead_rdBatt (v : Word) (s : State) : (s.returnRead v).rdBatt = s.rdBatt := rfl
@[simp] theorem returnRead_rdTemp (v : Word) (s : State) : (s.returnRead v).rdTemp = s.rdTemp := rfl
@[simp] theorem returnRead_rdTs (v : Word) (s : State) : (s.returnRead v).rdTs = s.rdTs := rfl
@[simp] theorem returnRead_rdCsum (v : Word) (s : State) : (s.returnRead v).rdCsum = s.rdCsum := rfl
@[simp] theorem returnRead_linkNext (v : Word) (s : State) : (s.returnRead v).linkNext = s.linkNext := rfl
@[simp] theorem returnRead_linkBackoff (v : Word) (s : State) : (s.returnRead v).linkBackoff = s.linkBackoff := rfl
@[simp] theorem returnRead_linkJitter (v : Word) (s : State) : (s.returnRead v).linkJitter = s.linkJitter := rfl
@[simp] theorem returnRead_decCount (v : Word) (s : State) : (s.returnRead v).decCount = s.decCount := rfl
@[simp] theorem returnRead_mem (v : Word) (s : State) : (s.returnRead v).mem = s.mem := rfl
@[simp] theorem returnRead_slot (v : Word) (s : State) : (s.returnRead v).slot = s.slot := rfl
@[simp] theorem returnRead_slotLen (v : Word) (s : State) : (s.returnRead v).slotLen = s.slotLen := rfl
@[simp] theorem returnRead_slotRssi (v : Word) (s : State) : (s.returnRead v).slotRssi = s.slotRssi := rfl
@[simp] theorem returnRead_slotSnr (v : Word) (s : State) : (s.returnRead v).slotSnr = s.slotSnr := rfl
@[simp] theorem returnRead_key (v : Word) (s : State) : (s.returnRead v).key = s.key := rfl
@[simp] theorem returnRead_netOut (v : Word) (s : State) : (s.returnRead v).netOut = s.netOut := rfl
@[simp] theorem returnRead_env_time (v : Word) (s : State) : (s.returnRead v).env.time = s.env.time := rfl
@[simp] theorem returnRead_env_rand (v : Word) (s : State) : (s.returnRead v).env.rand = s.env.rand := rfl
@[simp] theorem returnRead_env_radioData (v : Word) (s : State) : (s.returnRead v).env.radioData = s.env.radioData := rfl
@[simp] theorem returnRead_env_radioRssi (v : Word) (s : State) : (s.returnRead v).env.radioRssi = s.env.radioRssi := rfl
@[simp] theorem returnRead_env_radioSnr (v : Word) (s : State) : (s.returnRead v).env.radioSnr = s.env.radioSnr := rfl
@[simp] theorem returnRead_env_host (v : Word) (s : State) : (s.returnRead v).env.host = s.env.host := rfl
@[simp] theorem returnRead_env_radio (v : Word) (s : State) : (s.returnRead v).env.radio = s.env.radio := rfl
@[simp] theorem returnRead_env_network (v : Word) (s : State) : (s.returnRead v).env.network = s.env.network := rfl
@[simp] theorem returnRead_env_schedule (v : Word) (s : State) : (s.returnRead v).env.schedule = s.env.schedule := rfl
@[simp] theorem returnRead_env_hostReads (v : Word) (s : State) : (s.returnRead v).env.hostReads = s.env.hostReads ++ [v] := rfl

/-! `State.takeTurn` -/

@[simp] theorem takeTurn_cfg (t : Turn) (rest : List Turn) (s : State) : (s.takeTurn t rest).cfg = s.cfg := rfl
@[simp] theorem takeTurn_result (t : Turn) (rest : List Turn) (s : State) : (s.takeTurn t rest).result = s.result := rfl
@[simp] theorem takeTurn_keyValid (t : Turn) (rest : List Turn) (s : State) : (s.takeTurn t rest).keyValid = s.keyValid := rfl
@[simp] theorem takeTurn_mbxReady (t : Turn) (rest : List Turn) (s : State) : (s.takeTurn t rest).mbxReady = s.mbxReady := rfl
@[simp] theorem takeTurn_link (t : Turn) (rest : List Turn) (s : State) : (s.takeTurn t rest).link = s.link := rfl
@[simp] theorem takeTurn_hadBegun (t : Turn) (rest : List Turn) (s : State) : (s.takeTurn t rest).hadBegun = s.hadBegun := rfl
@[simp] theorem takeTurn_attempt (t : Turn) (rest : List Turn) (s : State) : (s.takeTurn t rest).attempt = s.attempt := rfl
@[simp] theorem takeTurn_publish (t : Turn) (rest : List Turn) (s : State) : (s.takeTurn t rest).publish = s.publish := rfl
@[simp] theorem takeTurn_readingValid (t : Turn) (rest : List Turn) (s : State) : (s.takeTurn t rest).readingValid = s.readingValid := rfl
@[simp] theorem takeTurn_sensorErr (t : Turn) (rest : List Turn) (s : State) : (s.takeTurn t rest).sensorErr = s.sensorErr := rfl
@[simp] theorem takeTurn_lastNow (t : Turn) (rest : List Turn) (s : State) : (s.takeTurn t rest).lastNow = s.lastNow := rfl
@[simp] theorem takeTurn_kst (t : Turn) (rest : List Turn) (s : State) : (s.takeTurn t rest).kst = s.kst := rfl
@[simp] theorem takeTurn_ivr (t : Turn) (rest : List Turn) (s : State) : (s.takeTurn t rest).ivr = s.ivr := rfl
@[simp] theorem takeTurn_frameLen (t : Turn) (rest : List Turn) (s : State) : (s.takeTurn t rest).frameLen = s.frameLen := rfl
@[simp] theorem takeTurn_frameRssi (t : Turn) (rest : List Turn) (s : State) : (s.takeTurn t rest).frameRssi = s.frameRssi := rfl
@[simp] theorem takeTurn_frameSnr (t : Turn) (rest : List Turn) (s : State) : (s.takeTurn t rest).frameSnr = s.frameSnr := rfl
@[simp] theorem takeTurn_ptLen (t : Turn) (rest : List Turn) (s : State) : (s.takeTurn t rest).ptLen = s.ptLen := rfl
@[simp] theorem takeTurn_rdIrr (t : Turn) (rest : List Turn) (s : State) : (s.takeTurn t rest).rdIrr = s.rdIrr := rfl
@[simp] theorem takeTurn_rdBatt (t : Turn) (rest : List Turn) (s : State) : (s.takeTurn t rest).rdBatt = s.rdBatt := rfl
@[simp] theorem takeTurn_rdTemp (t : Turn) (rest : List Turn) (s : State) : (s.takeTurn t rest).rdTemp = s.rdTemp := rfl
@[simp] theorem takeTurn_rdTs (t : Turn) (rest : List Turn) (s : State) : (s.takeTurn t rest).rdTs = s.rdTs := rfl
@[simp] theorem takeTurn_rdCsum (t : Turn) (rest : List Turn) (s : State) : (s.takeTurn t rest).rdCsum = s.rdCsum := rfl
@[simp] theorem takeTurn_linkNext (t : Turn) (rest : List Turn) (s : State) : (s.takeTurn t rest).linkNext = s.linkNext := rfl
@[simp] theorem takeTurn_linkBackoff (t : Turn) (rest : List Turn) (s : State) : (s.takeTurn t rest).linkBackoff = s.linkBackoff := rfl
@[simp] theorem takeTurn_linkJitter (t : Turn) (rest : List Turn) (s : State) : (s.takeTurn t rest).linkJitter = s.linkJitter := rfl
@[simp] theorem takeTurn_decCount (t : Turn) (rest : List Turn) (s : State) : (s.takeTurn t rest).decCount = s.decCount := rfl
@[simp] theorem takeTurn_mem (t : Turn) (rest : List Turn) (s : State) : (s.takeTurn t rest).mem = s.mem := rfl
@[simp] theorem takeTurn_slot (t : Turn) (rest : List Turn) (s : State) : (s.takeTurn t rest).slot = s.slot := rfl
@[simp] theorem takeTurn_slotLen (t : Turn) (rest : List Turn) (s : State) : (s.takeTurn t rest).slotLen = s.slotLen := rfl
@[simp] theorem takeTurn_slotRssi (t : Turn) (rest : List Turn) (s : State) : (s.takeTurn t rest).slotRssi = s.slotRssi := rfl
@[simp] theorem takeTurn_slotSnr (t : Turn) (rest : List Turn) (s : State) : (s.takeTurn t rest).slotSnr = s.slotSnr := rfl
@[simp] theorem takeTurn_key (t : Turn) (rest : List Turn) (s : State) : (s.takeTurn t rest).key = s.key := rfl
@[simp] theorem takeTurn_netOut (t : Turn) (rest : List Turn) (s : State) : (s.takeTurn t rest).netOut = s.netOut := rfl
@[simp] theorem takeTurn_env_time (t : Turn) (rest : List Turn) (s : State) : (s.takeTurn t rest).env.time = t.time := rfl
@[simp] theorem takeTurn_env_rand (t : Turn) (rest : List Turn) (s : State) : (s.takeTurn t rest).env.rand = t.rand := rfl
@[simp] theorem takeTurn_env_radioData (t : Turn) (rest : List Turn) (s : State) : (s.takeTurn t rest).env.radioData = s.env.radioData := rfl
@[simp] theorem takeTurn_env_radioRssi (t : Turn) (rest : List Turn) (s : State) : (s.takeTurn t rest).env.radioRssi = s.env.radioRssi := rfl
@[simp] theorem takeTurn_env_radioSnr (t : Turn) (rest : List Turn) (s : State) : (s.takeTurn t rest).env.radioSnr = s.env.radioSnr := rfl
@[simp] theorem takeTurn_env_host (t : Turn) (rest : List Turn) (s : State) : (s.takeTurn t rest).env.host = s.env.host := rfl
@[simp] theorem takeTurn_env_radio (t : Turn) (rest : List Turn) (s : State) : (s.takeTurn t rest).env.radio = s.env.radio := rfl
@[simp] theorem takeTurn_env_network (t : Turn) (rest : List Turn) (s : State) : (s.takeTurn t rest).env.network = s.env.network := rfl
@[simp] theorem takeTurn_env_schedule (t : Turn) (rest : List Turn) (s : State) : (s.takeTurn t rest).env.schedule = rest := rfl
@[simp] theorem takeTurn_env_hostReads (t : Turn) (rest : List Turn) (s : State) : (s.takeTurn t rest).env.hostReads = s.env.hostReads := rfl

/-! `State.popHost` -/

@[simp] theorem popHost_cfg (as : List BusAccess) (s : State) : (s.popHost as).cfg = s.cfg := rfl
@[simp] theorem popHost_result (as : List BusAccess) (s : State) : (s.popHost as).result = s.result := rfl
@[simp] theorem popHost_keyValid (as : List BusAccess) (s : State) : (s.popHost as).keyValid = s.keyValid := rfl
@[simp] theorem popHost_mbxReady (as : List BusAccess) (s : State) : (s.popHost as).mbxReady = s.mbxReady := rfl
@[simp] theorem popHost_link (as : List BusAccess) (s : State) : (s.popHost as).link = s.link := rfl
@[simp] theorem popHost_hadBegun (as : List BusAccess) (s : State) : (s.popHost as).hadBegun = s.hadBegun := rfl
@[simp] theorem popHost_attempt (as : List BusAccess) (s : State) : (s.popHost as).attempt = s.attempt := rfl
@[simp] theorem popHost_publish (as : List BusAccess) (s : State) : (s.popHost as).publish = s.publish := rfl
@[simp] theorem popHost_readingValid (as : List BusAccess) (s : State) : (s.popHost as).readingValid = s.readingValid := rfl
@[simp] theorem popHost_sensorErr (as : List BusAccess) (s : State) : (s.popHost as).sensorErr = s.sensorErr := rfl
@[simp] theorem popHost_lastNow (as : List BusAccess) (s : State) : (s.popHost as).lastNow = s.lastNow := rfl
@[simp] theorem popHost_kst (as : List BusAccess) (s : State) : (s.popHost as).kst = s.kst := rfl
@[simp] theorem popHost_ivr (as : List BusAccess) (s : State) : (s.popHost as).ivr = s.ivr := rfl
@[simp] theorem popHost_frameLen (as : List BusAccess) (s : State) : (s.popHost as).frameLen = s.frameLen := rfl
@[simp] theorem popHost_frameRssi (as : List BusAccess) (s : State) : (s.popHost as).frameRssi = s.frameRssi := rfl
@[simp] theorem popHost_frameSnr (as : List BusAccess) (s : State) : (s.popHost as).frameSnr = s.frameSnr := rfl
@[simp] theorem popHost_ptLen (as : List BusAccess) (s : State) : (s.popHost as).ptLen = s.ptLen := rfl
@[simp] theorem popHost_rdIrr (as : List BusAccess) (s : State) : (s.popHost as).rdIrr = s.rdIrr := rfl
@[simp] theorem popHost_rdBatt (as : List BusAccess) (s : State) : (s.popHost as).rdBatt = s.rdBatt := rfl
@[simp] theorem popHost_rdTemp (as : List BusAccess) (s : State) : (s.popHost as).rdTemp = s.rdTemp := rfl
@[simp] theorem popHost_rdTs (as : List BusAccess) (s : State) : (s.popHost as).rdTs = s.rdTs := rfl
@[simp] theorem popHost_rdCsum (as : List BusAccess) (s : State) : (s.popHost as).rdCsum = s.rdCsum := rfl
@[simp] theorem popHost_linkNext (as : List BusAccess) (s : State) : (s.popHost as).linkNext = s.linkNext := rfl
@[simp] theorem popHost_linkBackoff (as : List BusAccess) (s : State) : (s.popHost as).linkBackoff = s.linkBackoff := rfl
@[simp] theorem popHost_linkJitter (as : List BusAccess) (s : State) : (s.popHost as).linkJitter = s.linkJitter := rfl
@[simp] theorem popHost_decCount (as : List BusAccess) (s : State) : (s.popHost as).decCount = s.decCount := rfl
@[simp] theorem popHost_mem (as : List BusAccess) (s : State) : (s.popHost as).mem = s.mem := rfl
@[simp] theorem popHost_slot (as : List BusAccess) (s : State) : (s.popHost as).slot = s.slot := rfl
@[simp] theorem popHost_slotLen (as : List BusAccess) (s : State) : (s.popHost as).slotLen = s.slotLen := rfl
@[simp] theorem popHost_slotRssi (as : List BusAccess) (s : State) : (s.popHost as).slotRssi = s.slotRssi := rfl
@[simp] theorem popHost_slotSnr (as : List BusAccess) (s : State) : (s.popHost as).slotSnr = s.slotSnr := rfl
@[simp] theorem popHost_key (as : List BusAccess) (s : State) : (s.popHost as).key = s.key := rfl
@[simp] theorem popHost_netOut (as : List BusAccess) (s : State) : (s.popHost as).netOut = s.netOut := rfl
@[simp] theorem popHost_env_time (as : List BusAccess) (s : State) : (s.popHost as).env.time = s.env.time := rfl
@[simp] theorem popHost_env_rand (as : List BusAccess) (s : State) : (s.popHost as).env.rand = s.env.rand := rfl
@[simp] theorem popHost_env_radioData (as : List BusAccess) (s : State) : (s.popHost as).env.radioData = s.env.radioData := rfl
@[simp] theorem popHost_env_radioRssi (as : List BusAccess) (s : State) : (s.popHost as).env.radioRssi = s.env.radioRssi := rfl
@[simp] theorem popHost_env_radioSnr (as : List BusAccess) (s : State) : (s.popHost as).env.radioSnr = s.env.radioSnr := rfl
@[simp] theorem popHost_env_host (as : List BusAccess) (s : State) : (s.popHost as).env.host = as := rfl
@[simp] theorem popHost_env_radio (as : List BusAccess) (s : State) : (s.popHost as).env.radio = s.env.radio := rfl
@[simp] theorem popHost_env_network (as : List BusAccess) (s : State) : (s.popHost as).env.network = s.env.network := rfl
@[simp] theorem popHost_env_schedule (as : List BusAccess) (s : State) : (s.popHost as).env.schedule = s.env.schedule := rfl
@[simp] theorem popHost_env_hostReads (as : List BusAccess) (s : State) : (s.popHost as).env.hostReads = s.env.hostReads := rfl

/-! `State.popRadio` -/

@[simp] theorem popRadio_cfg (q : RadioRequest) (qs : List RadioRequest) (s : State) : (s.popRadio q qs).cfg = s.cfg := rfl
@[simp] theorem popRadio_result (q : RadioRequest) (qs : List RadioRequest) (s : State) : (s.popRadio q qs).result = s.result := rfl
@[simp] theorem popRadio_keyValid (q : RadioRequest) (qs : List RadioRequest) (s : State) : (s.popRadio q qs).keyValid = s.keyValid := rfl
@[simp] theorem popRadio_mbxReady (q : RadioRequest) (qs : List RadioRequest) (s : State) : (s.popRadio q qs).mbxReady = s.mbxReady := rfl
@[simp] theorem popRadio_link (q : RadioRequest) (qs : List RadioRequest) (s : State) : (s.popRadio q qs).link = s.link := rfl
@[simp] theorem popRadio_hadBegun (q : RadioRequest) (qs : List RadioRequest) (s : State) : (s.popRadio q qs).hadBegun = s.hadBegun := rfl
@[simp] theorem popRadio_attempt (q : RadioRequest) (qs : List RadioRequest) (s : State) : (s.popRadio q qs).attempt = s.attempt := rfl
@[simp] theorem popRadio_publish (q : RadioRequest) (qs : List RadioRequest) (s : State) : (s.popRadio q qs).publish = s.publish := rfl
@[simp] theorem popRadio_readingValid (q : RadioRequest) (qs : List RadioRequest) (s : State) : (s.popRadio q qs).readingValid = s.readingValid := rfl
@[simp] theorem popRadio_sensorErr (q : RadioRequest) (qs : List RadioRequest) (s : State) : (s.popRadio q qs).sensorErr = s.sensorErr := rfl
@[simp] theorem popRadio_lastNow (q : RadioRequest) (qs : List RadioRequest) (s : State) : (s.popRadio q qs).lastNow = s.lastNow := rfl
@[simp] theorem popRadio_kst (q : RadioRequest) (qs : List RadioRequest) (s : State) : (s.popRadio q qs).kst = s.kst := rfl
@[simp] theorem popRadio_ivr (q : RadioRequest) (qs : List RadioRequest) (s : State) : (s.popRadio q qs).ivr = s.ivr := rfl
@[simp] theorem popRadio_frameLen (q : RadioRequest) (qs : List RadioRequest) (s : State) : (s.popRadio q qs).frameLen = s.frameLen := rfl
@[simp] theorem popRadio_frameRssi (q : RadioRequest) (qs : List RadioRequest) (s : State) : (s.popRadio q qs).frameRssi = s.frameRssi := rfl
@[simp] theorem popRadio_frameSnr (q : RadioRequest) (qs : List RadioRequest) (s : State) : (s.popRadio q qs).frameSnr = s.frameSnr := rfl
@[simp] theorem popRadio_ptLen (q : RadioRequest) (qs : List RadioRequest) (s : State) : (s.popRadio q qs).ptLen = s.ptLen := rfl
@[simp] theorem popRadio_rdIrr (q : RadioRequest) (qs : List RadioRequest) (s : State) : (s.popRadio q qs).rdIrr = s.rdIrr := rfl
@[simp] theorem popRadio_rdBatt (q : RadioRequest) (qs : List RadioRequest) (s : State) : (s.popRadio q qs).rdBatt = s.rdBatt := rfl
@[simp] theorem popRadio_rdTemp (q : RadioRequest) (qs : List RadioRequest) (s : State) : (s.popRadio q qs).rdTemp = s.rdTemp := rfl
@[simp] theorem popRadio_rdTs (q : RadioRequest) (qs : List RadioRequest) (s : State) : (s.popRadio q qs).rdTs = s.rdTs := rfl
@[simp] theorem popRadio_rdCsum (q : RadioRequest) (qs : List RadioRequest) (s : State) : (s.popRadio q qs).rdCsum = s.rdCsum := rfl
@[simp] theorem popRadio_linkNext (q : RadioRequest) (qs : List RadioRequest) (s : State) : (s.popRadio q qs).linkNext = s.linkNext := rfl
@[simp] theorem popRadio_linkBackoff (q : RadioRequest) (qs : List RadioRequest) (s : State) : (s.popRadio q qs).linkBackoff = s.linkBackoff := rfl
@[simp] theorem popRadio_linkJitter (q : RadioRequest) (qs : List RadioRequest) (s : State) : (s.popRadio q qs).linkJitter = s.linkJitter := rfl
@[simp] theorem popRadio_decCount (q : RadioRequest) (qs : List RadioRequest) (s : State) : (s.popRadio q qs).decCount = s.decCount := rfl
@[simp] theorem popRadio_mem (q : RadioRequest) (qs : List RadioRequest) (s : State) : (s.popRadio q qs).mem = s.mem := rfl
@[simp] theorem popRadio_slot (q : RadioRequest) (qs : List RadioRequest) (s : State) : (s.popRadio q qs).slot = s.slot := rfl
@[simp] theorem popRadio_slotLen (q : RadioRequest) (qs : List RadioRequest) (s : State) : (s.popRadio q qs).slotLen = s.slotLen := rfl
@[simp] theorem popRadio_slotRssi (q : RadioRequest) (qs : List RadioRequest) (s : State) : (s.popRadio q qs).slotRssi = s.slotRssi := rfl
@[simp] theorem popRadio_slotSnr (q : RadioRequest) (qs : List RadioRequest) (s : State) : (s.popRadio q qs).slotSnr = s.slotSnr := rfl
@[simp] theorem popRadio_key (q : RadioRequest) (qs : List RadioRequest) (s : State) : (s.popRadio q qs).key = s.key := rfl
@[simp] theorem popRadio_netOut (q : RadioRequest) (qs : List RadioRequest) (s : State) : (s.popRadio q qs).netOut = s.netOut := rfl
@[simp] theorem popRadio_env_time (q : RadioRequest) (qs : List RadioRequest) (s : State) : (s.popRadio q qs).env.time = s.env.time := rfl
@[simp] theorem popRadio_env_rand (q : RadioRequest) (qs : List RadioRequest) (s : State) : (s.popRadio q qs).env.rand = s.env.rand := rfl
@[simp] theorem popRadio_env_radioData (q : RadioRequest) (qs : List RadioRequest) (s : State) : (s.popRadio q qs).env.radioData = q.data := rfl
@[simp] theorem popRadio_env_radioRssi (q : RadioRequest) (qs : List RadioRequest) (s : State) : (s.popRadio q qs).env.radioRssi = q.rssi := rfl
@[simp] theorem popRadio_env_radioSnr (q : RadioRequest) (qs : List RadioRequest) (s : State) : (s.popRadio q qs).env.radioSnr = q.snr := rfl
@[simp] theorem popRadio_env_host (q : RadioRequest) (qs : List RadioRequest) (s : State) : (s.popRadio q qs).env.host = s.env.host := rfl
@[simp] theorem popRadio_env_radio (q : RadioRequest) (qs : List RadioRequest) (s : State) : (s.popRadio q qs).env.radio = qs := rfl
@[simp] theorem popRadio_env_network (q : RadioRequest) (qs : List RadioRequest) (s : State) : (s.popRadio q qs).env.network = s.env.network := rfl
@[simp] theorem popRadio_env_schedule (q : RadioRequest) (qs : List RadioRequest) (s : State) : (s.popRadio q qs).env.schedule = s.env.schedule := rfl
@[simp] theorem popRadio_env_hostReads (q : RadioRequest) (qs : List RadioRequest) (s : State) : (s.popRadio q qs).env.hostReads = s.env.hostReads := rfl

/-! `State.popNetwork` -/

@[simp] theorem popNetwork_cfg (ws : List Word) (s : State) : (s.popNetwork ws).cfg = s.cfg := rfl
@[simp] theorem popNetwork_result (ws : List Word) (s : State) : (s.popNetwork ws).result = s.result := rfl
@[simp] theorem popNetwork_keyValid (ws : List Word) (s : State) : (s.popNetwork ws).keyValid = s.keyValid := rfl
@[simp] theorem popNetwork_mbxReady (ws : List Word) (s : State) : (s.popNetwork ws).mbxReady = s.mbxReady := rfl
@[simp] theorem popNetwork_link (ws : List Word) (s : State) : (s.popNetwork ws).link = s.link := rfl
@[simp] theorem popNetwork_hadBegun (ws : List Word) (s : State) : (s.popNetwork ws).hadBegun = s.hadBegun := rfl
@[simp] theorem popNetwork_attempt (ws : List Word) (s : State) : (s.popNetwork ws).attempt = s.attempt := rfl
@[simp] theorem popNetwork_publish (ws : List Word) (s : State) : (s.popNetwork ws).publish = s.publish := rfl
@[simp] theorem popNetwork_readingValid (ws : List Word) (s : State) : (s.popNetwork ws).readingValid = s.readingValid := rfl
@[simp] theorem popNetwork_sensorErr (ws : List Word) (s : State) : (s.popNetwork ws).sensorErr = s.sensorErr := rfl
@[simp] theorem popNetwork_lastNow (ws : List Word) (s : State) : (s.popNetwork ws).lastNow = s.lastNow := rfl
@[simp] theorem popNetwork_kst (ws : List Word) (s : State) : (s.popNetwork ws).kst = s.kst := rfl
@[simp] theorem popNetwork_ivr (ws : List Word) (s : State) : (s.popNetwork ws).ivr = s.ivr := rfl
@[simp] theorem popNetwork_frameLen (ws : List Word) (s : State) : (s.popNetwork ws).frameLen = s.frameLen := rfl
@[simp] theorem popNetwork_frameRssi (ws : List Word) (s : State) : (s.popNetwork ws).frameRssi = s.frameRssi := rfl
@[simp] theorem popNetwork_frameSnr (ws : List Word) (s : State) : (s.popNetwork ws).frameSnr = s.frameSnr := rfl
@[simp] theorem popNetwork_ptLen (ws : List Word) (s : State) : (s.popNetwork ws).ptLen = s.ptLen := rfl
@[simp] theorem popNetwork_rdIrr (ws : List Word) (s : State) : (s.popNetwork ws).rdIrr = s.rdIrr := rfl
@[simp] theorem popNetwork_rdBatt (ws : List Word) (s : State) : (s.popNetwork ws).rdBatt = s.rdBatt := rfl
@[simp] theorem popNetwork_rdTemp (ws : List Word) (s : State) : (s.popNetwork ws).rdTemp = s.rdTemp := rfl
@[simp] theorem popNetwork_rdTs (ws : List Word) (s : State) : (s.popNetwork ws).rdTs = s.rdTs := rfl
@[simp] theorem popNetwork_rdCsum (ws : List Word) (s : State) : (s.popNetwork ws).rdCsum = s.rdCsum := rfl
@[simp] theorem popNetwork_linkNext (ws : List Word) (s : State) : (s.popNetwork ws).linkNext = s.linkNext := rfl
@[simp] theorem popNetwork_linkBackoff (ws : List Word) (s : State) : (s.popNetwork ws).linkBackoff = s.linkBackoff := rfl
@[simp] theorem popNetwork_linkJitter (ws : List Word) (s : State) : (s.popNetwork ws).linkJitter = s.linkJitter := rfl
@[simp] theorem popNetwork_decCount (ws : List Word) (s : State) : (s.popNetwork ws).decCount = s.decCount := rfl
@[simp] theorem popNetwork_mem (ws : List Word) (s : State) : (s.popNetwork ws).mem = s.mem := rfl
@[simp] theorem popNetwork_slot (ws : List Word) (s : State) : (s.popNetwork ws).slot = s.slot := rfl
@[simp] theorem popNetwork_slotLen (ws : List Word) (s : State) : (s.popNetwork ws).slotLen = s.slotLen := rfl
@[simp] theorem popNetwork_slotRssi (ws : List Word) (s : State) : (s.popNetwork ws).slotRssi = s.slotRssi := rfl
@[simp] theorem popNetwork_slotSnr (ws : List Word) (s : State) : (s.popNetwork ws).slotSnr = s.slotSnr := rfl
@[simp] theorem popNetwork_key (ws : List Word) (s : State) : (s.popNetwork ws).key = s.key := rfl
@[simp] theorem popNetwork_netOut (ws : List Word) (s : State) : (s.popNetwork ws).netOut = s.netOut := rfl
@[simp] theorem popNetwork_env_time (ws : List Word) (s : State) : (s.popNetwork ws).env.time = s.env.time := rfl
@[simp] theorem popNetwork_env_rand (ws : List Word) (s : State) : (s.popNetwork ws).env.rand = s.env.rand := rfl
@[simp] theorem popNetwork_env_radioData (ws : List Word) (s : State) : (s.popNetwork ws).env.radioData = s.env.radioData := rfl
@[simp] theorem popNetwork_env_radioRssi (ws : List Word) (s : State) : (s.popNetwork ws).env.radioRssi = s.env.radioRssi := rfl
@[simp] theorem popNetwork_env_radioSnr (ws : List Word) (s : State) : (s.popNetwork ws).env.radioSnr = s.env.radioSnr := rfl
@[simp] theorem popNetwork_env_host (ws : List Word) (s : State) : (s.popNetwork ws).env.host = s.env.host := rfl
@[simp] theorem popNetwork_env_radio (ws : List Word) (s : State) : (s.popNetwork ws).env.radio = s.env.radio := rfl
@[simp] theorem popNetwork_env_network (ws : List Word) (s : State) : (s.popNetwork ws).env.network = ws := rfl
@[simp] theorem popNetwork_env_schedule (ws : List Word) (s : State) : (s.popNetwork ws).env.schedule = s.env.schedule := rfl
@[simp] theorem popNetwork_env_hostReads (ws : List Word) (s : State) : (s.popNetwork ws).env.hostReads = s.env.hostReads := rfl

end Sys2Proof.Machine
end

