-- ==== Sys2Proof/Laws/Memory.lean ====
section
/-! SUPPORT. Byte memory: what a read sees after a store, that every store keeps the canonical form, and that memories in
canonical form with equal reads are equal. -/

namespace Sys2Proof.Machine

@[simp] theorem readBytes_length (m : Memory) (base n : Nat) : (m.readBytes base n).length = n := by
  simp [Memory.readBytes]

theorem readBytes_getD (m : Memory) (base n i : Nat) (h : i < n) :
    (m.readBytes base n).getD i 0 = Memory.read m (base + i) := by
  simp [Memory.readBytes, List.getD, List.getElem?_range h]

/-! Cells of a byte sequence -/

theorem cellsOf_bounds (bs : List Byte) : ∀ (base : Nat), ∀ c ∈ cellsOf base bs,
    base ≤ c.1 ∧ c.1 < base + bs.length ∧ c.2 ≠ 0 := by
  induction bs with
  | nil => intro base c hc; simp [cellsOf] at hc
  | cons b bs ih =>
    intro base c hc
    have step : ∀ c ∈ cellsOf (base + 1) bs, base ≤ c.1 ∧ c.1 < base + (b :: bs).length ∧ c.2 ≠ 0 := by
      intro c hc
      have := ih (base + 1) c hc
      simp only [List.length_cons]
      exact ⟨by omega, by omega, this.2.2⟩
    by_cases hb : b = 0
    · simp only [cellsOf, hb, if_true] at hc
      simpa using step c hc
    · simp only [cellsOf, hb, if_false, List.mem_cons] at hc
      rcases hc with rfl | hc
      · exact ⟨le_refl _, by simp, hb⟩
      · exact step c hc

theorem cellsOf_sorted (bs : List Byte) : ∀ base : Nat,
    (cellsOf base bs).Pairwise (fun c d => c.1 < d.1) := by
  induction bs with
  | nil => intro base; simp [cellsOf]
  | cons b bs ih =>
    intro base
    by_cases hb : b = 0
    · simpa [cellsOf, hb] using ih (base + 1)
    · simp only [cellsOf, hb, if_false, List.pairwise_cons]
      refine ⟨fun c hc => ?_, ih (base + 1)⟩
      have := (cellsOf_bounds bs (base + 1) c hc).1
      omega

/-! Reads -/

theorem read_eq_zero_of_not_mem (m : Memory) (a : Nat) (h : ∀ c ∈ m, c.1 ≠ a) : Memory.read m a = 0 := by
  induction m with
  | nil => rfl
  | cons c m ih =>
    simp only [List.mem_cons, forall_eq_or_imp] at h
    simp [Memory.read, h.1, ih h.2]

theorem read_append (m n : Memory) (a : Nat) :
    Memory.read (m ++ n) a = if ∃ c ∈ m, c.1 = a then Memory.read m a else Memory.read n a := by
  induction m with
  | nil => simp
  | cons c m ih =>
    by_cases hc : c.1 = a
    · simp [Memory.read, hc]
    · simp [Memory.read, hc, ih]

theorem read_filter (m : Memory) (a : Nat) (p : Nat → Bool) :
    Memory.read (m.filter fun c => p c.1) a = if p a then Memory.read m a else 0 := by
  induction m with
  | nil => simp [Memory.read]
  | cons c m ih =>
    by_cases hc : c.1 = a
    · subst hc
      by_cases hp : p c.1 <;> simp [Memory.read, hp, ih]
    · by_cases hp : p c.1 <;> simp [Memory.read, hp, ih, hc]

theorem read_cellsOf (bs : List Byte) : ∀ base a : Nat, Memory.read (cellsOf base bs) a =
    if base ≤ a ∧ a < base + bs.length then bs.getD (a - base) 0 else 0 := by
  induction bs with
  | nil => intro base a; simp [cellsOf, Memory.read]
  | cons b bs ih =>
    intro base a
    by_cases hb : b = 0
    · simp only [cellsOf, hb, if_true, ih, List.length_cons]
      rcases Nat.lt_trichotomy a base with h | h | h
      · simp [show ¬ base ≤ a by omega, show ¬ base + 1 ≤ a by omega]
      · subst h; simp
      · obtain ⟨k, rfl⟩ : ∃ k, a = base + 1 + k := ⟨a - base - 1, by omega⟩
        simp [show base + 1 + k - base = k + 1 by omega, show base ≤ base + 1 + k by omega,
          show (base + 1 + k < base + (bs.length + 1)) ↔ (k < bs.length) by omega]
    · simp only [cellsOf, hb, if_false, Memory.read, ih, List.length_cons]
      rcases Nat.lt_trichotomy a base with h | h | h
      · simp [show ¬ base ≤ a by omega, show ¬ base + 1 ≤ a by omega, show base ≠ a by omega]
      · subst h; simp
      · obtain ⟨k, rfl⟩ : ∃ k, a = base + 1 + k := ⟨a - base - 1, by omega⟩
        simp [show base + 1 + k - base = k + 1 by omega, show base ≤ base + 1 + k by omega,
          show base ≠ base + 1 + k by omega,
          show (base + 1 + k < base + (bs.length + 1)) ↔ (k < bs.length) by omega]

theorem filter_bounds (m : Memory) (p : Nat → Bool) (a : Nat) (hp : p a = false) :
    ¬ ∃ c ∈ m.filter (fun c => p c.1), c.1 = a := by
  rintro ⟨c, hc, rfl⟩
  simp [hp] at hc

/-- What one byte reads as after a store: the stored byte inside the stored range, the old byte outside it. -/
theorem read_writeBytes (m : Memory) (base : Nat) (bs : List Byte) (a : Nat) :
    Memory.read (m.writeBytes base bs) a =
      if base ≤ a ∧ a < base + bs.length then bs.getD (a - base) 0 else Memory.read m a := by
  unfold Memory.writeBytes
  rw [List.append_assoc, read_append, read_append]
  have lo := read_filter m a (fun x => decide (x < base))
  have hi := read_filter m a (fun x => decide (base + bs.length ≤ x))
  have mid := read_cellsOf bs base a
  by_cases h1 : a < base
  · have : ¬ (base ≤ a ∧ a < base + bs.length) := by omega
    rw [if_neg this]
    split
    · simpa [h1] using lo
    · next hn =>
      have hz : Memory.read m a = 0 := by
        apply read_eq_zero_of_not_mem
        intro c hc hca
        exact hn ⟨c, by simp [hc, hca, h1], hca⟩
      rw [if_neg, hi]
      · simp [hz]
      · rintro ⟨c, hc, rfl⟩
        have := (cellsOf_bounds bs base c hc).1
        omega
  · rw [if_neg (filter_bounds m (fun x => decide (x < base)) a (by simpa using h1))]
    by_cases h2 : a < base + bs.length
    · rw [if_pos (show base ≤ a ∧ a < base + bs.length by omega)]
      split
      · simpa [show base ≤ a by omega, h2] using mid
      · next hn =>
        rw [hi]
        simp only [show ¬ base + bs.length ≤ a by omega, decide_false, Bool.false_eq_true, if_false]
        have hmid : Memory.read (cellsOf base bs) a = 0 :=
          read_eq_zero_of_not_mem _ _ fun c hc hca => hn ⟨c, hc, hca⟩
        rw [mid, if_pos (by omega)] at hmid
        exact hmid.symm
    · rw [if_neg (show ¬ (base ≤ a ∧ a < base + bs.length) by omega), if_neg, hi]
      · simp [show base + bs.length ≤ a by omega]
      · rintro ⟨c, hc, rfl⟩
        have := (cellsOf_bounds bs base c hc).2.1
        omega

/-! The canonical form -/

/-- A store keeps the canonical form. -/
theorem writeBytes_wf (m : Memory) (base : Nat) (bs : List Byte) (h : Memory.wf m) :
    Memory.wf (m.writeBytes base bs) := by
  obtain ⟨hs, hz⟩ := h
  unfold Memory.writeBytes
  refine ⟨?_, ?_⟩
  · rw [List.pairwise_append, List.pairwise_append]
    refine ⟨⟨hs.filter _, cellsOf_sorted bs base, ?_⟩, hs.filter _, ?_⟩
    · intro c hc d hd
      have := (cellsOf_bounds bs base d hd).1
      simp at hc
      omega
    · intro c hc d hd
      simp only [List.mem_filter, decide_eq_true_eq, List.mem_append] at hc hd
      rcases hc with hc | hc
      · omega
      · have := (cellsOf_bounds bs base c hc).2.1
        omega
  · intro c hc
    simp only [List.mem_append, List.mem_filter] at hc
    rcases hc with (hc | hc) | hc
    · exact hz c hc.1
    · exact (cellsOf_bounds bs base c hc).2.2
    · exact hz c hc.1

/-- The cells after a store are old cells or lie in the stored range. -/
theorem writeBytes_bounds (m : Memory) (base : Nat) (bs : List Byte) (c : Host.Cell)
    (hc : c ∈ m.writeBytes base bs) : c ∈ m ∨ (base ≤ c.1 ∧ c.1 < base + bs.length) := by
  simp only [Memory.writeBytes, List.mem_append, List.mem_filter] at hc
  rcases hc with (hc | hc) | hc
  · exact .inl hc.1
  · exact .inr ⟨(cellsOf_bounds bs base c hc).1, (cellsOf_bounds bs base c hc).2.1⟩
  · exact .inl hc.1

theorem read_of_mem (m : Memory) (h : Memory.wf m) (c : Host.Cell) (hc : c ∈ m) :
    Memory.read m c.1 = c.2 := by
  induction m with
  | nil => simp at hc
  | cons d m ih =>
    obtain ⟨hs, hz⟩ := h
    rw [List.pairwise_cons] at hs
    simp only [List.mem_cons] at hc
    rcases hc with rfl | hc
    · simp [Memory.read]
    · have hlt := hs.1 c hc
      simp only [Memory.read, show d.1 ≠ c.1 by omega, if_false]
      exact ih ⟨hs.2, fun e he => hz e (List.mem_cons_of_mem _ he)⟩ hc

/-- Memories in canonical form that read alike are equal data. -/
theorem memory_ext (m n : Memory) (hm : Memory.wf m) (hn : Memory.wf n)
    (h : ∀ a, Memory.read m a = Memory.read n a) : m = n := by
  have sub : ∀ (m n : Memory), Memory.wf m → Memory.wf n →
      (∀ a, Memory.read m a = Memory.read n a) → ∀ c ∈ m, c ∈ n := by
    intro m n hm hn h c hc
    have hr := read_of_mem m hm c hc
    rw [h] at hr
    by_contra hne
    by_cases hex : ∃ d ∈ n, d.1 = c.1
    · obtain ⟨d, hd, hdc⟩ := hex
      have := read_of_mem n hn d hd
      rw [hdc, hr] at this
      exact hne (by rwa [show c = d from Prod.ext hdc.symm this])
    · push Not at hex
      rw [read_eq_zero_of_not_mem n c.1 hex] at hr
      exact hm.2 c hc hr.symm
  have nodup : ∀ m : Memory, Memory.wf m → m.Nodup := fun m hm =>
    hm.1.imp fun hlt heq => by rw [heq] at hlt; exact lt_irrefl _ hlt
  have perm : m.Perm n := (List.perm_ext_iff_of_nodup (nodup m hm) (nodup n hn)).2 fun c =>
    ⟨sub m n hm hn h c, sub n m hn hm (fun a => (h a).symm) c⟩
  exact perm.eq_of_pairwise (fun c d _ _ h1 h2 => absurd h1 (by omega)) hm.1 hn.1

end Sys2Proof.Machine
end

