-- ==== Sys2Proof/Laws/Ops.lean ====
section
/-! SUPPORT. What the shared operations answer: byte order, 128-byte fills, the register map, and the inversion of one
host transaction and of one turn of the arbiter. -/

namespace Sys2Proof.Machine

/-! Byte order -/

@[simp] theorem lanes_length (v : Word) : (lanes v).length = 4 := rfl

theorem lanes_getD (v : Word) (j : Nat) (h : j < 4) : (lanes v).getD j 0 = lane v j := by
  obtain rfl | rfl | rfl | rfl : j = 0 ∨ j = 1 ∨ j = 2 ∨ j = 3 := by omega
  all_goals rfl

theorem lane_toNat (v : Word) (j : Nat) : (lane v j).toNat = v.toNat / 2 ^ (8 * j) % 256 := by
  simp [lane, Nat.shiftRight_eq_div_pow]

theorem le32_lt (B : List Byte) (i : Nat) : le32 B i < 2 ^ 32 := by
  unfold le32
  have h0 := (B.getD i 0).isLt
  have h1 := (B.getD (i + 1) 0).isLt
  have h2 := (B.getD (i + 2) 0).isLt
  have h3 := (B.getD (i + 3) 0).isLt
  omega

theorem le16_lt (B : List Byte) (i : Nat) : le16 B i < 2 ^ 16 := by
  unfold le16
  have h0 := (B.getD i 0).isLt
  have h1 := (B.getD (i + 1) 0).isLt
  omega

/-- Lane `j` of the word made of four bytes is byte `j` (R107). -/
theorem lane_wordOfLanes (B : List Byte) (j : Nat) (h : j < 4) : lane (wordOfLanes B) j = B.getD j 0 := by
  apply BitVec.eq_of_toNat_eq
  rw [lane_toNat, wordOfLanes, BitVec.toNat_ofNat, Nat.mod_eq_of_lt (le32_lt B 0)]
  unfold le32
  have h0 := (B.getD 0 0).isLt
  have h1 := (B.getD 1 0).isLt
  have h2 := (B.getD 2 0).isLt
  have h3 := (B.getD 3 0).isLt
  obtain rfl | rfl | rfl | rfl : j = 0 ∨ j = 1 ∨ j = 2 ∨ j = 3 := by omega
  all_goals norm_num
  all_goals omega

/-- Two words with equal lanes are equal. -/
theorem word_ext (v w : Word) (h : ∀ j, j < 4 → lane v j = lane w j) : v = w := by
  apply BitVec.eq_of_toNat_eq
  have e : ∀ j, j < 4 → v.toNat / 2 ^ (8 * j) % 256 = w.toNat / 2 ^ (8 * j) % 256 := fun j hj => by
    rw [← lane_toNat, ← lane_toNat, h j hj]
  have e0 := e 0 (by omega)
  have e1 := e 1 (by omega)
  have e2 := e 2 (by omega)
  have e3 := e 3 (by omega)
  have hv := v.isLt
  have hw := w.isLt
  norm_num at e0 e1 e2 e3
  omega

/-- The word made of the lanes of `v` is `v` (R107). -/
theorem wordOfLanes_lanes (v : Word) : wordOfLanes (lanes v) = v :=
  word_ext _ _ fun j hj => by rw [lane_wordOfLanes _ _ hj, lanes_getD _ _ hj]

theorem clampLen_toNat (v : Word) : (clampLen v).toNat = min v.toNat 128 := by
  simp only [clampLen, slotCap, BitVec.toNat_ofNat]
  omega

/-! Byte sequences -/

@[simp] theorem fill128_length (B : List Byte) (n : Nat) : (fill128 B n).length = 128 := by
  simp [fill128, slotCap]

theorem fill128_getD (B : List Byte) (n i : Nat) (h : i < 128) :
    (fill128 B n).getD i 0 = if i < n then B.getD i 0 else 0 := by
  simp [fill128, slotCap, List.getD, List.getElem?_range h]

theorem blockOfBytes_toList (b : Block) : blockOfBytes b.toList = b := by
  apply Vector.ext
  intro i hi
  simp [blockOfBytes]

theorem setBlockWord_getElem (b : Block) (k : Fin 4) (v : Word) (i : Nat) (h : i < 16) :
    (setBlockWord b k v)[i] = if i / 4 = k.val then lane v (i % 4) else b[i] := by
  simp [setBlockWord]

theorem lane_blockWord (b : Block) (k : Fin 4) (j : Nat) (h : j < 4) :
    lane (blockWord b k) j = b.toList.getD (4 * k.val + j) 0 := by
  rw [blockWord, lane_wordOfLanes _ _ h]
  simp [List.getD, h]

/-! The register map (R39) -/

theorem regAt_offset (r : Reg) : regAt r.offset = some r := by
  cases r with
  | key k => revert k; decide
  | iv k => revert k; decide
  | frameBuf k => revert k; decide
  | ptBuf k => revert k; decide
  | _ => decide

theorem offset_of_regAt (off : Nat) (r : Reg) (h : regAt off = some r) : r.offset = off := by
  have := List.find?_some h
  simpa using this

theorem offset_lt (r : Reg) : r.offset < windowSize ∧ r.offset % 4 = 0 := by
  cases r with
  | key k => revert k; decide
  | iv k => revert k; decide
  | frameBuf k => revert k; decide
  | ptBuf k => revert k; decide
  | _ => decide

/-- A 4-byte access at a register's own address reaches it. -/
theorem busTarget_offset (cfg : Config) (r : Reg) : busTarget cfg (cfg.hostBase + r.offset) 4 = .ok r := by
  obtain ⟨h1, h2⟩ := offset_lt r
  unfold busTarget
  rw [if_neg (by omega), if_neg (by simp [h2])]
  simp [regAt_offset]

/-- Everything a transaction's target can be. -/
theorem busTarget_cases (cfg : Config) (addr width : Nat) :
    (∃ r, busTarget cfg addr width = .ok r ∧ width = 4 ∧ addr = cfg.hostBase + r.offset) ∨
    busTarget cfg addr width = .error (.outsideWindow addr) ∨
    busTarget cfg addr width = .error (.busError addr width 0) := by
  unfold busTarget
  split
  · exact .inr (.inl rfl)
  · next hin =>
    split
    · exact .inr (.inr rfl)
    · next hw =>
      split
      · next r hr =>
        left
        refine ⟨r, rfl, by omega, ?_⟩
        have := offset_of_regAt _ _ hr
        omega
      · exact .inr (.inr rfl)

/-! One host transaction -/

/-- Everything a host transaction can answer with a next state: a read that returns a register's value, a write to CMD
that issues its word, or a write that updates another register. -/
theorem hostAccess_cases (a : BusAccess) (s t : State) (h : hostAccess a s = .next t) :
    (∃ r, a = .read (s.cfg.hostBase + r.offset) 4 ∧ t = s.returnRead (readReg r s)) ∨
    (∃ v, a = .write (cmdAddr s.cfg) 4 v ∧ issueHost v s = .next t) ∨
    (∃ r v, r ≠ .cmd ∧ a = .write (s.cfg.hostBase + r.offset) 4 v ∧ t = writeReg r v s) := by
  cases a with
  | read addr width =>
    left
    obtain ⟨r, hr, rfl, rfl⟩ | hr | hr := busTarget_cases s.cfg addr width
    · simp only [hostAccess, hr, Host.Outcome.next.injEq] at h
      exact ⟨r, rfl, h.symm⟩
    · simp [hostAccess, hr] at h
    · simp [hostAccess, hr] at h
  | write addr width v =>
    right
    obtain ⟨r, hr, rfl, rfl⟩ | hr | hr := busTarget_cases s.cfg addr width
    · by_cases hc : r = .cmd
      · subst hc
        simp only [hostAccess, hr, if_true] at h
        exact .inl ⟨v, rfl, h⟩
      · simp only [hostAccess, hr, hc, if_false, Host.Outcome.next.injEq] at h
        exact .inr ⟨r, v, hc, rfl, h.symm⟩
    · simp [hostAccess, hr] at h
    · simp [hostAccess, hr] at h

/-- Everything a word written to CMD can do. -/
theorem issueHost_cases (w : Word) (s t : State) (h : issueHost w s = .next t) :
    (∃ i, decode .host w = .ok i ∧ exec i s = .next t) ∨
    (∃ e, decode .host w = .error e ∧ t = s.finish .illegalCmd) := by
  unfold issueHost at h
  split at h
  · next i hi => exact .inl ⟨i, hi, h⟩
  · next e he => exact .inr ⟨e, he, by simpa using h.symm⟩

/-! One turn -/

/-- Everything a step can answer with a next state: nothing scheduled, a turn with nothing to issue, or one item of the
scheduled port's agent performed completely. -/
theorem step_cases (s t : State) (h : step s = .next t) :
    s.cfg.Admissible ∧
    ((s.env.schedule = [] ∧ t = s) ∨
      ∃ turn rest, s.env.schedule = turn :: rest ∧
        ((turn.port = .host ∧ s.env.host = [] ∧ t = s.takeTurn turn rest) ∨
         (turn.port = .radio ∧ s.env.radio = [] ∧ t = s.takeTurn turn rest) ∨
         (turn.port = .network ∧ s.env.network = [] ∧ t = s.takeTurn turn rest) ∨
         (∃ a as, turn.port = .host ∧ s.env.host = a :: as ∧
            hostAccess a ((s.takeTurn turn rest).popHost as) = .next t) ∨
         (∃ q qs, turn.port = .radio ∧ s.env.radio = q :: qs ∧
            issueRadio q.word ((s.takeTurn turn rest).popRadio q qs) = .next t) ∨
         (∃ w ws, turn.port = .network ∧ s.env.network = w :: ws ∧
            issueNetwork w ((s.takeTurn turn rest).popNetwork ws) = .next t))) := by
  unfold step at h
  split at h
  · next hadm =>
    refine ⟨hadm, ?_⟩
    unfold runTurn at h
    split at h
    · next hs => exact .inl ⟨hs, by simpa using h.symm⟩
    · next turn rest hs =>
      refine .inr ⟨turn, rest, hs, ?_⟩
      unfold servePort at h
      cases hp : turn.port <;> simp only [hp] at h
      · split at h
        · next he => exact .inl ⟨rfl, he, by simpa using h.symm⟩
        · next a as he => exact .inr (.inr (.inr (.inl ⟨a, as, rfl, he, h⟩)))
      · split at h
        · next he => exact .inr (.inl ⟨rfl, he, by simpa using h.symm⟩)
        · next q qs he => exact .inr (.inr (.inr (.inr (.inl ⟨q, qs, rfl, he, h⟩))))
      · split at h
        · next he => exact .inr (.inr (.inl ⟨rfl, he, by simpa using h.symm⟩))
        · next w ws he => exact .inr (.inr (.inr (.inr (.inr ⟨w, ws, rfl, he, h⟩))))
  · exact absurd h (by simp)

end Sys2Proof.Machine
end

