-- ==== Sys2Proof/Laws/Units.lean ====
section
/-! SUPPORT. What the units' shared stages answer: the CBC core, the decode stage, the stages of the pipeline, and the
interval arithmetic of the link unit. -/

namespace Sys2Proof.Machine

/-! Cipher -/

@[simp] theorem xorBlock_getElem (a b : Block) (i : Nat) (h : i < 16) : (xorBlock a b)[i] = a[i] ^^^ b[i] := by
  simp [xorBlock]

theorem cbcDecrypt_length (k : Block) (n : Nat) : ∀ (iv : Block) (ct : List Byte),
    (cbcDecrypt k n iv ct).length = 16 * n := by
  induction n with
  | zero => intro iv ct; simp [cbcDecrypt]
  | succ n ih => intro iv ct; simp [cbcDecrypt, ih]; omega

/-- What unpadding accepts: a last byte `p` of 1 to 16, repeated `p` times (R238). -/
theorem unpad_some (P Q : List Byte) (h : unpad P = some Q) :
    ∃ p, 1 ≤ p ∧ p ≤ 16 ∧ Q = P.take (P.length - p) ∧ (∀ b ∈ P.drop (P.length - p), b.toNat = p) ∧
      (P.getD (P.length - 1) 0).toNat = p := by
  unfold unpad at h
  simp only [padMax] at h
  split at h
  · simp at h
  · next hp =>
    split at h
    · next hall =>
      refine ⟨_, by omega, by omega, by simpa using h.symm, ?_, rfl⟩
      simpa using hall
    · simp at h

theorem unpad_length_lt (P Q : List Byte) (hP : 0 < P.length) (h : unpad P = some Q) : Q.length < P.length := by
  obtain ⟨p, h1, -, rfl, -⟩ := unpad_some P Q h
  simp only [List.length_take]
  omega

/-- Everything the CBC core can answer (R235, R236, R239, R240). -/
theorem cbcCore_cases (iv : Block) (ct : List Byte) (s : State) :
    (s.keyValid = false ∧ cbcCore iv ct s = (.cipherFail, s)) ∨
    (s.keyValid = true ∧ unpad (cbcDecrypt s.key (ct.length / 16) iv ct) = none ∧
      cbcCore iv ct s = (.invalidPadding, { s with decCount := s.decCount + 1 })) ∨
    (∃ P, s.keyValid = true ∧ unpad (cbcDecrypt s.key (ct.length / 16) iv ct) = some P ∧
      cbcCore iv ct s =
        (.ok, { s with
          decCount := s.decCount + 1
          mem := s.mem.writeBytes ptBase (fill128 P P.length)
          ptLen := BitVec.ofNat 8 P.length })) := by
  unfold cbcCore
  cases hk : s.keyValid with
  | false => exact .inl ⟨rfl, by simp⟩
  | true =>
    simp only [if_true, blk]
    cases hu : unpad (cbcDecrypt s.key (ct.length / 16) iv ct) with
    | none => exact .inr (.inl ⟨trivial, rfl, by simp⟩)
    | some P => exact .inr (.inr ⟨P, trivial, rfl, by simp [State.storeWindow]⟩)

/-! Codec -/

/-- Everything the decode stage can answer (R266). -/
theorem decodeStage_cases (s : State) :
    (s.ptLen.toNat ≠ 11 ∧ decodeStage s = (.sizeMismatch, s.dropReading)) ∨
    (s.ptLen.toNat = 11 ∧ sum8 (s.ptBytes 0 11) 0 10 ≠ ((s.ptBytes 0 11).getD 10 0).toNat ∧
      decodeStage s = (.checksumMismatch, s.dropReading)) ∨
    (s.ptLen.toNat = 11 ∧ sum8 (s.ptBytes 0 11) 0 10 = ((s.ptBytes 0 11).getD 10 0).toNat ∧
      decodeStage s = (.ok, s.latchReading (s.ptBytes 0 11))) := by
  unfold decodeStage
  simp only [recLen, csumSpan]
  by_cases h1 : s.ptLen.toNat = 11
  · by_cases h2 : sum8 (s.ptBytes 0 11) 0 10 = ((s.ptBytes 0 11).getD 10 0).toNat
    · exact .inr (.inr ⟨h1, h2, by rw [if_neg (not_not.2 h1), if_neg (not_not.2 h2)]⟩)
    · exact .inr (.inl ⟨h1, h2, by rw [if_neg (not_not.2 h1), if_pos h2]⟩)
  · exact .inl ⟨h1, by rw [if_pos h1]⟩

/-! Pipeline -/

/-- Everything the stages past the framing checks can answer: the CBC core's own failure, or what the decode stage
makes of the plaintext, with the publish gate when it passed (R311, R313, R315). -/
theorem runStages_cases (iv : Block) (ct : List Byte) (s : State) :
    ((cbcCore iv ct s).1 ≠ .ok ∧ runStages iv ct s = cbcCore iv ct s) ∨
    ((cbcCore iv ct s).1 = .ok ∧ (decodeStage (cbcCore iv ct s).2).1 ≠ .ok ∧
      runStages iv ct s = decodeStage (cbcCore iv ct s).2) ∨
    ((cbcCore iv ct s).1 = .ok ∧ (decodeStage (cbcCore iv ct s).2).1 = .ok ∧
      runStages iv ct s =
        (.ok, { (decodeStage (cbcCore iv ct s).2).2 with
          publish := decide ((decodeStage (cbcCore iv ct s).2).2.link = .connected) })) := by
  unfold runStages
  by_cases h1 : (cbcCore iv ct s).1 = .ok
  · by_cases h2 : (decodeStage (cbcCore iv ct s).2).1 = .ok
    · exact .inr (.inr ⟨h1, h2, by simp [h1, h2]⟩)
    · exact .inr (.inl ⟨h1, h2, by simp [h1, h2]⟩)
  · exact .inl ⟨h1, by simp [h1]⟩

/-! Link -/

/-- The backoff step stays between the floor and the ceiling (R283, R296). -/
theorem nextInterval_range (cfg : Config) (h : cfg.Admissible) (b : Nat) :
    cfg.backoffFloor ≤ nextInterval cfg b ∧ nextInterval cfg b ≤ cfg.backoffCeil := by
  unfold nextInterval
  obtain ⟨-, h2, -, -⟩ := h
  omega

/-- The jitter is at most a tenth of the interval (R284). -/
theorem jitter_le (b r : Nat) : jitter b r ≤ b / 10 := by
  unfold jitter jitterDiv
  have := Nat.mod_lt r (show 0 < b / 10 + 1 by omega)
  omega

end Sys2Proof.Machine
end

