-- ==== Sys2Proof/Laws/Exec.lean ====
section
/-! SUPPORT. The frames of the units' stages, what each command can do, that every command completes and
leaves the configuration and the environment, and what a step can do. -/

namespace Sys2Proof.Machine

/-! Frames of the stages -/

/-- The CBC core writes PT_BUF, PT_LEN and DEC_COUNT only (R235). -/
theorem cbcCore_frame (iv : Block) (ct : List Byte) (s : State) :
    (cbcCore iv ct s).2 =
      { s with
        decCount := (cbcCore iv ct s).2.decCount
        mem := (cbcCore iv ct s).2.mem
        ptLen := (cbcCore iv ct s).2.ptLen } := by
  rcases cbcCore_cases iv ct s with ⟨-, e⟩ | ⟨-, -, e⟩ | ⟨P, -, -, e⟩ <;> rw [e]

/-- The decode stage writes the reading and its two flags only (R266). -/
theorem decodeStage_frame (s : State) :
    (decodeStage s).2 =
      { s with
        rdIrr := (decodeStage s).2.rdIrr
        rdBatt := (decodeStage s).2.rdBatt
        rdTemp := (decodeStage s).2.rdTemp
        rdTs := (decodeStage s).2.rdTs
        rdCsum := (decodeStage s).2.rdCsum
        readingValid := (decodeStage s).2.readingValid
        sensorErr := (decodeStage s).2.sensorErr } := by
  rcases decodeStage_cases s with ⟨-, e⟩ | ⟨-, -, e⟩ | ⟨-, -, e⟩ <;> rw [e] <;> rfl

/-- The decode stage's answers: OK, SIZE_MISMATCH, CHECKSUM_MISMATCH (R266). -/
theorem decodeStage_code (s : State) :
    (decodeStage s).1 = .ok ∨ (decodeStage s).1 = .sizeMismatch ∨ (decodeStage s).1 = .checksumMismatch := by
  rcases decodeStage_cases s with ⟨-, e⟩ | ⟨-, -, e⟩ | ⟨-, -, e⟩ <;> rw [e] <;> simp

/-- The stages past the framing checks write what the CBC core and the decode stage write, and PUBLISH (R311). -/
theorem runStages_frame (iv : Block) (ct : List Byte) (s : State) :
    (runStages iv ct s).2 =
      { s with
        decCount := (cbcCore iv ct s).2.decCount
        mem := (cbcCore iv ct s).2.mem
        ptLen := (cbcCore iv ct s).2.ptLen
        rdIrr := (runStages iv ct s).2.rdIrr
        rdBatt := (runStages iv ct s).2.rdBatt
        rdTemp := (runStages iv ct s).2.rdTemp
        rdTs := (runStages iv ct s).2.rdTs
        rdCsum := (runStages iv ct s).2.rdCsum
        readingValid := (runStages iv ct s).2.readingValid
        sensorErr := (runStages iv ct s).2.sensorErr
        publish := (runStages iv ct s).2.publish } := by
  rcases cbcCore_cases iv ct s with ⟨-, e⟩ | ⟨-, -, e⟩ | ⟨P, -, -, e⟩
  · simp [runStages, e]
  · simp [runStages, e]
  · obtain ⟨x, hx, e⟩ : ∃ x, x = _ ∧ cbcCore iv ct s = (.ok, x) := ⟨_, rfl, e⟩
    rcases decodeStage_cases x with ⟨-, d⟩ | ⟨-, -, d⟩ | ⟨-, -, d⟩ <;> simp only [runStages, e, d] <;> subst hx <;> rfl

/-! Every command -/

/-- Every command completes, in every state and on every operand (R413). -/
theorem exec_completes (i : Instr) (s : State) : ∃ t, exec i s = .next t := by
  cases i with
  | nop => exact ⟨_, rfl⟩
  | keyLoad => simp only [exec, execKeyLoad]; split <;> exact ⟨_, rfl⟩
  | aesDecrypt off len => simp only [exec, execAesDecrypt]; split <;> exact ⟨_, rfl⟩
  | decode => exact ⟨_, rfl⟩
  | mbxTake => simp only [exec, execMbxTake]; split <;> exact ⟨_, rfl⟩
  | linkTick => simp only [exec, execLinkTick]; split <;> [skip; split] <;> exact ⟨_, rfl⟩
  | forceReconnect => exact ⟨_, rfl⟩
  | processFrame => simp only [exec, execProcessFrame]; split <;> [skip; split] <;> exact ⟨_, rfl⟩
  | radioPost n => exact ⟨_, rfl⟩
  | linkEvent up => simp only [exec, execLinkEvent]; split <;> split <;> exact ⟨_, rfl⟩

/-- What AES_DECRYPT can do: INVALID_LENGTH, or what the CBC core makes of the named bytes (R230, R231). -/
theorem execAesDecrypt_cases (off len : Nat) (s t : State) (h : execAesDecrypt off len s = .next t) :
    ((len = 0 ∨ len % 16 ≠ 0 ∨ 128 < off + len) ∧ t = { s with result := .invalidLength }) ∨
    (0 < len ∧ len % 16 = 0 ∧ off + len ≤ 128 ∧
      t = (cbcCore s.ivr (s.frameBytes off len) s).2.finish (cbcCore s.ivr (s.frameBytes off len) s).1) := by
  unfold execAesDecrypt at h
  split at h
  · exact .inl ⟨by omega, by simpa [State.finish] using h.symm⟩
  · exact .inr ⟨by omega, by omega, by omega, by simpa using h.symm⟩

/-- What PROCESS_FRAME can do: FRAME_SHORT, FRAME_ALIGN, or what the stages make of the frame (R311, R312). -/
theorem execProcessFrame_cases (s t : State) (h : execProcessFrame s = .next t) :
    (s.frameLen.toNat < 32 ∧ t = { s with publish := false, result := .frameShort }) ∨
    (32 ≤ s.frameLen.toNat ∧ (s.frameLen.toNat - 16) % 16 ≠ 0 ∧
      t = { s with publish := false, result := .frameAlign }) ∨
    (32 ≤ s.frameLen.toNat ∧ (s.frameLen.toNat - 16) % 16 = 0 ∧
      ∃ r, r = runStages (blockOfBytes (s.frameBytes 0 16)) (s.frameBytes 16 (s.frameLen.toNat - 16))
          { s with publish := false } ∧
        t = r.2.finish r.1) := by
  simp only [execProcessFrame, minFrame, blk] at h
  split at h
  · next h1 => exact .inl ⟨h1, by simpa [State.finish] using h.symm⟩
  · next h1 =>
    split at h
    · next h2 => exact .inr (.inl ⟨by omega, h2, by simpa [State.finish] using h.symm⟩)
    · next h2 =>
      simp only [Host.Outcome.next.injEq] at h
      exact .inr (.inr ⟨by omega, by omega, _, rfl, h.symm⟩)

/-- What MBX_TAKE can do (R205, R206). -/
theorem execMbxTake_cases (s t : State) (h : execMbxTake s = .next t) :
    (s.mbxReady = true ∧
      t = { s with
        mem := s.mem.writeBytes frameBase (s.slot.readBytes 0 slotCap)
        frameLen := s.slotLen, frameRssi := s.slotRssi, frameSnr := s.slotSnr, mbxReady := false, result := .ok }) ∨
    (s.mbxReady = false ∧ t = { s with frameLen := 0, result := .empty }) := by
  unfold execMbxTake at h
  split at h
  · next h1 => exact .inl ⟨h1, by simpa [State.finish, State.storeWindow] using h.symm⟩
  · next h1 => exact .inr ⟨by simpa using h1, by simpa [State.finish] using h.symm⟩

/-- What KEY_LOAD can do (R221). -/
theorem execKeyLoad_cases (s t : State) (h : execKeyLoad s = .next t) :
    (s.keyValid = true ∧ t = { s with kst := zeroBlock, result := .keyLocked }) ∨
    (s.keyValid = false ∧ t = { s with key := s.kst, keyValid := true, kst := zeroBlock, result := .ok }) := by
  unfold execKeyLoad at h
  split at h
  · next h1 => exact .inl ⟨h1, by simpa [State.finish] using h.symm⟩
  · next h1 => exact .inr ⟨by simpa using h1, by simpa [State.finish] using h.symm⟩

/-- What LINK_TICK can do (R285, R286, R288). -/
theorem execLinkTick_cases (s t : State) (h : execLinkTick s = .next t) :
    (s.link = .connected ∧ ∃ n, t = { s with lastNow := s.env.time, attempt := .noAttempt, linkNext := n, result := .ok }) ∨
    (s.link ≠ .connected ∧ s.env.time.toNat < s.linkNext.toNat ∧
      t = { s with lastNow := s.env.time, attempt := .noAttempt, result := .ok }) ∨
    (s.link ≠ .connected ∧ s.linkNext.toNat ≤ s.env.time.toNat ∧
      t = (attemptLink s.env.time s.env.rand { s with lastNow := s.env.time, attempt := .noAttempt }).finish .ok) := by
  simp only [execLinkTick] at h
  split at h
  · next h1 => exact .inl ⟨h1, _, by simpa [State.finish] using h.symm⟩
  · next h1 =>
    split at h
    · next h2 =>
      simp only [Host.Outcome.next.injEq] at h
      exact .inr (.inr ⟨h1, h2, h.symm⟩)
    · next h2 => exact .inr (.inl ⟨h1, by simpa using h2, by simpa [State.finish] using h.symm⟩)

/-- What LINK_EVENT can do: it writes the link's four elements only (R289 to R292, R425). -/
theorem execLinkEvent_frame (up : Bool) (s t : State) (h : execLinkEvent up s = .next t) :
    t = { s with lastNow := s.env.time, link := t.link, linkBackoff := t.linkBackoff, linkNext := t.linkNext } ∧
      t.link = if up then .connected else .disconnected := by
  simp only [execLinkEvent] at h
  repeat' split at h
  all_goals
    simp only [Host.Outcome.next.injEq] at h
    subst h
    simp_all

/-- No command changes the configuration or the environment. -/
theorem exec_env (i : Instr) (s t : State) (h : exec i s = .next t) : t.env = s.env ∧ t.cfg = s.cfg := by
  cases i with
  | nop => simp only [exec, execNop, Host.Outcome.next.injEq] at h; subst h; exact ⟨rfl, rfl⟩
  | keyLoad => rcases execKeyLoad_cases s t h with ⟨-, rfl⟩ | ⟨-, rfl⟩ <;> exact ⟨rfl, rfl⟩
  | aesDecrypt off len =>
    rcases execAesDecrypt_cases off len s t h with ⟨-, rfl⟩ | ⟨-, -, -, rfl⟩
    · exact ⟨rfl, rfl⟩
    · rw [cbcCore_frame]; exact ⟨rfl, rfl⟩
  | decode =>
    simp only [exec, execDecode, Host.Outcome.next.injEq] at h
    subst h
    rw [decodeStage_frame]
    exact ⟨rfl, rfl⟩
  | mbxTake => rcases execMbxTake_cases s t h with ⟨-, rfl⟩ | ⟨-, rfl⟩ <;> exact ⟨rfl, rfl⟩
  | linkTick => rcases execLinkTick_cases s t h with ⟨-, n, rfl⟩ | ⟨-, -, rfl⟩ | ⟨-, -, rfl⟩ <;> exact ⟨rfl, rfl⟩
  | forceReconnect => simp only [exec, execForceReconnect, Host.Outcome.next.injEq] at h; subst h; exact ⟨rfl, rfl⟩
  | processFrame =>
    rcases execProcessFrame_cases s t h with ⟨-, rfl⟩ | ⟨-, -, rfl⟩ | ⟨-, -, r, rfl, rfl⟩
    · exact ⟨rfl, rfl⟩
    · exact ⟨rfl, rfl⟩
    · rw [runStages_frame]; exact ⟨rfl, rfl⟩
  | radioPost n => simp only [exec, execRadioPost, Host.Outcome.next.injEq] at h; subst h; exact ⟨rfl, rfl⟩
  | linkEvent up => rw [(execLinkEvent_frame up s t h).1]; exact ⟨rfl, rfl⟩

/-- A register write other than a command changes neither. -/
theorem writeReg_env (r : Reg) (v : Word) (s : State) : (writeReg r v s).env = s.env ∧ (writeReg r v s).cfg = s.cfg := by
  cases r <;> simp [writeReg, State.storeWindow]

/-! Every step -/

/-- Everything a step can do: nothing, a turn that passes, one read or register write or CMD word of the host, one word
of the radio, one word of the network collaborator.
A CMD word runs its command or finishes ILLEGAL_CMD; the other ports' words run their one command or are ignored. -/
theorem step_effects (s t : State) (h : step s = .next t) :
    s.cfg.Admissible ∧
    (t = s ∨ ∃ turn rest, s.env.schedule = turn :: rest ∧
      (t = s.takeTurn turn rest ∨
       (∃ a as, turn.port = .host ∧ s.env.host = a :: as ∧
          ((∃ v, t = ((s.takeTurn turn rest).popHost as).returnRead v) ∨
           (∃ r v, t = writeReg r v ((s.takeTurn turn rest).popHost as)) ∨
           (∃ v, a = .write (cmdAddr s.cfg) 4 v ∧
              ((∃ i, decode .host v = .ok i ∧ exec i ((s.takeTurn turn rest).popHost as) = .next t) ∨
               t = ((s.takeTurn turn rest).popHost as).finish .illegalCmd)))) ∨
       (∃ q qs, turn.port = .radio ∧ s.env.radio = q :: qs ∧
          ((∃ n, exec (.radioPost n) ((s.takeTurn turn rest).popRadio q qs) = .next t) ∨
           t = (s.takeTurn turn rest).popRadio q qs)) ∨
       (∃ w ws, turn.port = .network ∧ s.env.network = w :: ws ∧
          ((∃ u, exec (.linkEvent u) ((s.takeTurn turn rest).popNetwork ws) = .next t) ∨
           t = (s.takeTurn turn rest).popNetwork ws)))) := by
  obtain ⟨hadm, h⟩ := step_cases s t h
  refine ⟨hadm, ?_⟩
  rcases h with ⟨-, rfl⟩ | ⟨turn, rest, hs, h⟩
  · exact .inl rfl
  refine .inr ⟨turn, rest, hs, ?_⟩
  rcases h with ⟨-, -, rfl⟩ | ⟨-, -, rfl⟩ | ⟨-, -, rfl⟩ | ⟨a, as, hp, he, h⟩ | ⟨q, qs, hp, he, h⟩ | ⟨w, ws, hp, he, h⟩
  · exact .inl rfl
  · exact .inl rfl
  · exact .inl rfl
  · refine .inr (.inl ⟨a, as, hp, he, ?_⟩)
    rcases hostAccess_cases _ _ _ h with ⟨r, -, rfl⟩ | ⟨v, hv, h⟩ | ⟨r, v, -, -, rfl⟩
    · exact .inl ⟨_, rfl⟩
    · refine .inr (.inr ⟨v, hv, ?_⟩)
      rcases issueHost_cases _ _ _ h with ⟨i, hi, h⟩ | ⟨e, -, rfl⟩
      · exact .inl ⟨i, hi, h⟩
      · exact .inr rfl
    · exact .inr (.inl ⟨_, _, rfl⟩)
  · refine .inr (.inr (.inl ⟨q, qs, hp, he, ?_⟩))
    unfold issueRadio at h
    split at h
    · next i hi =>
      simp only [decode, decodeRadio] at hi
      repeat' split at hi
      all_goals simp at hi
      subst hi
      exact .inl ⟨_, h⟩
    · exact .inr (by simpa using h.symm)
  · refine .inr (.inr (.inr ⟨w, ws, hp, he, ?_⟩))
    unfold issueNetwork at h
    split at h
    · next i hi =>
      simp only [decode, decodeNetwork] at hi
      repeat' split at hi
      all_goals simp at hi
      subst hi
      exact .inl ⟨_, h⟩
    · exact .inr (by simpa using h.symm)

end Sys2Proof.Machine
end

