-- ==== Sys2Proof/Laws/PerInstr.lean ====
section
/-! SUPPORT. Statements about every command, one lemma per constructor. Family `TableRow`: the encoding of a well-formed
command is a word of the command's row of spec/opcode_table.json. -/

namespace Sys2Proof.Laws.TableRow

/-- The encoded word under the row's mask is the row's match. -/
def Statement (i : Instr) : Prop :=
  i.wellFormed = true → encode i &&& (tableRow i).2 = (tableRow i).1

theorem nop : Statement .nop := fun _ => by decide

theorem keyLoad : Statement .keyLoad := fun _ => by decide

theorem aesDecrypt (off len : Nat) : Statement (.aesDecrypt off len) := fun h => by
  simp only [Instr.wellFormed, Bool.and_eq_true, decide_eq_true_eq] at h
  have e := encode_aesDecrypt_toNat off len h.1 h.2
  exact (and_opMask_eq _ 2 (by norm_num)).2 ⟨by omega, by omega⟩

theorem decode : Statement .decode := fun _ => by decide

theorem mbxTake : Statement .mbxTake := fun _ => by decide

theorem linkTick : Statement .linkTick := fun _ => by decide

theorem forceReconnect : Statement .forceReconnect := fun _ => by decide

theorem processFrame : Statement .processFrame := fun _ => by decide

theorem radioPost (n : Nat) : Statement (.radioPost n) := fun h => by
  simp only [Instr.wellFormed, decide_eq_true_eq] at h
  have e := encode_radioPost_toNat n h
  exact (and_opMask_eq _ 16 (by norm_num)).2 ⟨by omega, by omega⟩

theorem linkEvent (up : Bool) : Statement (.linkEvent up) := fun _ => by cases up <;> decide

end Sys2Proof.Laws.TableRow
end

