-- ==== Sys2Proof/Machine/Assembler.lean ====
section
/-! DEFINITION. The assembly language of 30_encoding R160 to R162: what each line puts on its port, and the expansions of
the pseudo-instructions. A program is loaded into the agents' lists from outside the machine (log 9). Lines are data:
the spelling of numbers, byte strings and comments is not modelled (log 14). -/

namespace Sys2Proof.Machine

/-- The lines of R161 that are not pseudo-instructions. -/
inductive Line where
  /-- `WR reg, v`. -/
  | wr (r : Reg) (v : Word)
  /-- `RD reg`. -/
  | rd (r : Reg)
  /-- A host command, `WR CMD, <word of R151>`. -/
  | command (i : Instr)
  /-- `RADIO_POST h'<bytes>', rssi, snr`. -/
  | radioPost (D : List Byte) (rssi snr : Word)
  /-- `LINK_EVENT UP` or `LINK_EVENT DOWN`. -/
  | linkEvent (up : Bool)
  /-- `@TIME = v`. -/
  | atTime (v : Word)
  /-- `@RAND = v`. -/
  | atRand (v : Word)
deriving DecidableEq, Repr

/-! Pseudo-instructions (R162) -/

/-- The words of a byte string, followed by zero bytes to a multiple of 4: `le32(b', 4k)` for `k = 0 .. ceil(n/4)-1`. -/
def wordsOf (b : List Byte) : List Word :=
  (List.range ((b.length + 3) / 4)).map fun k => wordOfLanes (b.drop (4 * k))

/-- `LDKEY h'k0..k15'`. -/
def ldkey (k : List Byte) : List Line :=
  (List.finRange 4).map (fun j => .wr (.key j) (wordOfLanes (k.drop (4 * j.val)))) ++ [.command .keyLoad]

/-- `LDIV h'v0..v15'`. -/
def ldiv (v : List Byte) : List Line :=
  (List.finRange 4).map fun j => .wr (.iv j) (wordOfLanes (v.drop (4 * j.val)))

/-- `LDFRAME h'b0..b(n-1)'`. -/
def ldframe (b : List Byte) : List Line :=
  ((List.finRange 32).zip (wordsOf b)).map (fun kv => .wr (.frameBuf kv.1) kv.2) ++
    [.wr .frameLen (BitVec.ofNat 32 b.length)]

/-- `LDPT h'b0..b(n-1)'`. -/
def ldpt (b : List Byte) : List Line :=
  ((List.finRange 32).zip (wordsOf b)).map (fun kv => .wr (.ptBuf kv.1) kv.2) ++
    [.wr .ptLen (BitVec.ofNat 32 b.length)]

/-- `POLL`: one iteration of the Ingestion Loop (R319). -/
def poll : List Line := [.command .linkTick, .command .mbxTake, .command .processFrame]

/-! Encoding (R161) -/

/-- What a radio line puts on the radio port: the word with N the number of bytes, and the side band. -/
def radioRequest (D : List Byte) (rssi snr : Word) : RadioRequest :=
  { word := encode (.radioPost D.length), data := Vector.ofFn fun i : Fin 128 => D.getD i.val 0, rssi := rssi, snr := snr }

/-- The environment with one more line at the end: its item on its agent's list and its turn on the schedule, with the
TIME and RAND that hold there. -/
def Env.addLine (base : Nat) (l : Line) (e : Env × Word × Word) : Env × Word × Word :=
  let (env, time, rand) := e
  let turn (p : Port) : List Turn := env.schedule ++ [{ port := p, time := time, rand := rand }]
  match l with
  | .wr r v =>
    ({ env with host := env.host ++ [.write (base + r.offset) 4 v], schedule := turn .host }, time, rand)
  | .rd r => ({ env with host := env.host ++ [.read (base + r.offset) 4], schedule := turn .host }, time, rand)
  | .command i =>
    ({ env with host := env.host ++ [.write (base + Reg.offset .cmd) 4 (encode i)], schedule := turn .host }, time, rand)
  | .radioPost D rssi snr =>
    ({ env with radio := env.radio ++ [radioRequest D rssi snr], schedule := turn .radio }, time, rand)
  | .linkEvent up =>
    ({ env with network := env.network ++ [encode (.linkEvent up)], schedule := turn .network }, time, rand)
  | .atTime v => (env, v, rand)
  | .atRand v => (env, time, v)

/-- The machine with a program loaded: the lines run one after another in the order written, which fixes one
interleaving of the agents (R161). -/
def State.load (program : List Line) (s : State) : State :=
  { s with env := (program.foldl (fun e l => Env.addLine s.cfg.hostBase l e) (s.env, s.env.time, s.env.rand)).1 }

end Sys2Proof.Machine
end

