-- ==== Sys2Proof/Tests/Slice0.lean ====
section
/-! SUPPORT. The model's own tests, each of one step or one operation; the expected values are those of the spec's vectors
(95_test_vectors.md), named V-…, and of the encodings of R151. The theorems named `test_witness_…` give, for an obligation
with hypotheses, concrete data that meet them. -/

namespace Sys2Proof.Tests

open Sys2Proof Sys2Proof.Machine

/-! Small states -/

/-- The `len` bytes of a hexadecimal numeral, first byte first. -/
def bytes (len n : Nat) : List Byte :=
  (List.range len).map fun i => BitVec.ofNat 8 (n / 2 ^ (8 * (len - 1 - i)))

/-- Whether an outcome is a next state with a property. -/
def nextWith (o : Host.Outcome State Fault Refusal) (p : State → Bool) : Bool :=
  match o with
  | .next t => p t
  | .fault _ => false
  | .refused _ => false

/-- Whether an outcome is a given fault. -/
def faultIs (o : Host.Outcome State Fault Refusal) (f : Fault) : Bool :=
  match o with
  | .next _ => false
  | .fault g => g == f
  | .refused _ => false

/-- An outcome that passes a check of its next state is a next state. -/
theorem next_of_nextWith (o : Host.Outcome State Fault Refusal) (p : State → Bool) (h : nextWith o p = true) :
    ∃ t, o = .next t ∧ p t = true := by
  cases o with
  | next t => exact ⟨t, rfl, h⟩
  | fault f => simp [nextWith] at h
  | refused r => simp [nextWith] at h

/-- The test key of the vectors. -/
def testKey : Block := blockOfBytes (bytes 16 0x000102030405060708090a0b0c0d0e0f)

/-- Reset with the test key loaded. -/
def keyed : State := { State.reset with keyValid := true, key := testKey }

/-- A state with a frame in FRAME_BUF. -/
def frameIn (B : List Byte) (s : State) : State :=
  { s with mem := s.mem.writeBytes 0x100 B, frameLen := BitVec.ofNat 8 B.length }

/-- A state with a record in PT_BUF. -/
def recordIn (B : List Byte) (s : State) : State :=
  { s with mem := s.mem.writeBytes 0x180 B, ptLen := BitVec.ofNat 8 B.length }

/-- The E7 ciphertext block. -/
def e7Block : List Byte := bytes 16 0x3d29031a21fd382661c920c067f5e684

/-- The E7 frame: an IV of zeros and the ciphertext block. -/
def e7 : List Byte := bytes 16 0 ++ e7Block

/-- The E7 record. -/
def e7Record : List Byte := bytes 11 0xf401740ed70000f15365f7

/-- A state with TIME and RAND on the inputs. -/
def atTime (time rand : Word) (s : State) : State := { s with env := { s.env with time := time, rand := rand } }

/-- A state whose next turn is the host's, with one transaction to perform. -/
def hostTurn (a : BusAccess) (s : State) : State :=
  { s with env := { s.env with host := [a], schedule := [{ port := .host, time := 0, rand := 0 }] } }

/-- A state whose next turn is the radio's, with a word and its side band. -/
def radioTurn (w : Word) (B : List Byte) (s : State) : State :=
  let q : RadioRequest := { word := w, data := Vector.ofFn fun i : Fin 128 => B.getD i.val 0, rssi := 3, snr := 4 }
  { s with env := { s.env with radio := [q], schedule := [{ port := .radio, time := 0, rand := 0 }] } }

/-- A state whose next turn is the network collaborator's, with one word. -/
def networkTurn (w : Word) (s : State) : State :=
  { s with env := { s.env with network := [w], schedule := [{ port := .network, time := 0, rand := 0 }] } }

/-- The state of V-LINK-1's end: one attempt made at TIME 0 with RAND 0. -/
def connecting : State :=
  { State.reset with link := .connecting, hadBegun := true, attempt := .beginAttempt, linkBackoff := 3000, linkNext := 3000 }

/-- The state after LINK_EVENT UP at TIME 0 from reset (V-LINK-8). -/
def connected : State := { State.reset with link := .connected, linkBackoff := 3000, linkNext := 12000 }

/-! Well-formedness: each check refuses an ill-formed term and takes the largest well-formed one -/

theorem test_wellFormed_refuses_off : (Instr.aesDecrypt 256 0).wellFormed = false := by decide
theorem test_wellFormed_refuses_len : (Instr.aesDecrypt 0 256).wellFormed = false := by decide
theorem test_wellFormed_refuses_n : (Instr.radioPost 65536).wellFormed = false := by decide
theorem test_witness_EncodedCommandDecodesToItself :
    (Instr.aesDecrypt 255 255).wellFormed = true ∧ (Instr.radioPost 65535).wellFormed = true ∧
      (Instr.linkEvent false).wellFormed = true ∧ (Instr.aesDecrypt 0 0).wellFormed = true := by decide

/-! Decoding: words written out bit by bit from R141 to R144 -/

theorem test_decode_nop : decode .host 0b00000000_00000000_00000000_00000000#32 = .ok .nop := by decide
theorem test_decode_keyLoad : decode .host 0b00000000_00000000_00000000_00000001#32 = .ok .keyLoad := by decide
theorem test_decode_aesDecrypt :
    decode .host 0b00000000_00100000_00010000_00000010#32 = .ok (.aesDecrypt 16 32) := by decide
theorem test_decode_decode : decode .host 0b00000000_00000000_00000000_00000011#32 = .ok .decode := by decide
theorem test_decode_mbxTake : decode .host 0b00000000_00000000_00000000_00000100#32 = .ok .mbxTake := by decide
theorem test_decode_linkTick : decode .host 0b00000000_00000000_00000000_00000101#32 = .ok .linkTick := by decide
theorem test_decode_forceReconnect :
    decode .host 0b00000000_00000000_00000000_00000110#32 = .ok .forceReconnect := by decide
theorem test_decode_processFrame :
    decode .host 0b00000000_00000000_00000000_00000111#32 = .ok .processFrame := by decide
theorem test_decode_radioPost :
    decode .radio 0b00000000_00000001_00101100_00010000#32 = .ok (.radioPost 300) := by decide
theorem test_decode_linkEvent_up :
    decode .network 0b00000000_00000000_00000001_00100000#32 = .ok (.linkEvent true) := by decide
theorem test_decode_linkEvent_down :
    decode .network 0b00000000_00000000_00000000_00100000#32 = .ok (.linkEvent false) := by decide

/-- The rejections of V-ILL-1 to V-ILL-9, V-MBX-7, V-MBX-8 and V-LINK-16, by name. -/
theorem test_decode_rejects :
    decode .host 0x08#32 = .error .reservedOpcode ∧ decode .host 0x0F#32 = .error .reservedOpcode ∧
      decode .host 0x10#32 = .error .otherPortOpcode ∧ decode .host 0x30#32 = .error .reservedOpcode ∧
      decode .host 0xFF#32 = .error .reservedOpcode ∧ decode .host 0x0100#32 = .error .operandBits ∧
      decode .host 0x01000005#32 = .error .reservedBits ∧ decode .host 0x00010001#32 = .error .operandBits ∧
      decode .host 0x01001002#32 = .error .reservedBits ∧ decode .host 0x0120#32 = .error .otherPortOpcode ∧
      decode .radio 0x01000210#32 = .error .reservedBits ∧ decode .radio 0x0211#32 = .error .reservedOpcode ∧
      decode .radio 0x07#32 = .error .otherPortOpcode ∧
      decode .network 0x0220#32 = .error .reservedBits ∧ decode .network 0x0121#32 = .error .reservedOpcode := by
  decide

/-- Every row of the opcode table, numbered as the table numbers it. -/
theorem test_decodeTableWord :
    [0x00, 0x01, 0x00101002, 0x03, 0x04, 0x05, 0x06, 0x07, 0x2010, 0x120, 0x20, 0x08, 0x30].map (decodeTableWord 32) =
      [some .nop, some .keyLoad, some (.aesDecrypt 16 16), some .decode, some .mbxTake, some .linkTick] ++
      [some .forceReconnect, some .processFrame, some (.radioPost 32), some (.linkEvent true), some (.linkEvent false),
       none, none] := by decide

/-- `step` runs the word that `withFetchWord` places: PROCESS_FRAME from reset (V-PIPE-3b), a post of 65535 bytes on the
radio port, and LINK_EVENT UP on the network port. -/
theorem test_withFetchWord :
    nextWith (step (State.reset.withFetchWord 32 0x07)) (fun t => t.result == .frameShort) = true ∧
      nextWith (step (State.reset.withFetchWord 32 0x00FFFF10)) (fun t => t.slotLen == 128 && t.mbxReady) = true ∧
      nextWith (step (State.reset.withFetchWord 32 0x120)) (fun t => t.link == .connected) = true := by decide

theorem test_witness_OperandFieldsAreUnsigned :
    decode .host 0x00FF0002#32 = .ok (.aesDecrypt 0 255) ∧ decode .host 0x0000FF02#32 = .ok (.aesDecrypt 255 0) ∧
      decode .radio 0x00FFFF10#32 = .ok (.radioPost 65535) ∧ decode .network 0x20#32 = .ok (.linkEvent false) := by decide

theorem test_witness_HostWordLegality :
    let legal (w : Word) := w.extractLsb' 0 8 ≤ 0x07#8 ∧ w.extractLsb' 24 8 = 0#8 ∧
      (w.extractLsb' 0 8 = 0x02#8 ∨ (w.extractLsb' 8 8 = 0#8 ∧ w.extractLsb' 16 8 = 0#8))
    legal 0x00FFFF02#32 ∧ legal 0x07#32 ∧ ¬ legal 0x08#32 ∧ ¬ legal 0x01000005#32 ∧ ¬ legal 0x0107#32 := by decide

theorem test_witness_RadioAndNetworkWordLegality :
    let radio (w : Word) := w.extractLsb' 0 8 = 0x10#8 ∧ w.extractLsb' 24 8 = 0#8
    let network (w : Word) := w.extractLsb' 0 8 = 0x20#8 ∧ w.extractLsb' 9 23 = 0#23
    radio 0x00FFFF10#32 ∧ ¬ radio 0x01000210#32 ∧ ¬ radio 0x0211#32 ∧
      network 0x120#32 ∧ ¬ network 0x220#32 ∧ ¬ network 0x121#32 := by decide

/-! The step and the ports -/

theorem test_witness_StepRunsTheDecodedCommand :
    State.reset.cfg.Admissible ∧
    (hostTurn (.write (cmdAddr State.reset.cfg) 4 0x07#32) State.reset).env.schedule = [⟨.host, 0, 0⟩] ∧
    (hostTurn (.write (cmdAddr State.reset.cfg) 4 0x07#32) State.reset).env.host = [.write (cmdAddr Config.default) 4 0x07#32] ∧
    decode .host 0x07#32 = .ok .processFrame ∧
    (radioTurn 0x2010#32 e7 State.reset).env.schedule = [⟨.radio, 0, 0⟩] ∧
    (∃ q, (radioTurn 0x2010#32 e7 State.reset).env.radio = [q] ∧ decode .radio q.word = .ok (.radioPost 32)) ∧
    (networkTurn 0x120#32 State.reset).env.schedule = [⟨.network, 0, 0⟩] ∧
    (networkTurn 0x120#32 State.reset).env.network = [0x120#32] ∧
    decode .network 0x120#32 = .ok (.linkEvent true) :=
  ⟨by decide, rfl, rfl, by decide, rfl, ⟨_, rfl, by decide⟩, rfl, rfl, by decide⟩

/-- V-BUS-2, V-BUS-3 and the edges of the mapped ranges. -/
theorem test_busErrors :
    faultIs (step (hostTurn (.read 0x000 1) State.reset)) (.busError 0x000 1 0) = true ∧
      faultIs (step (hostTurn (.read 0x002 4) State.reset)) (.busError 0x002 4 0) = true ∧
      faultIs (step (hostTurn (.read 0x064 4) State.reset)) (.busError 0x064 4 0) = true ∧
      faultIs (step (hostTurn (.read 0x0FC 4) State.reset)) (.busError 0x0FC 4 0) = true ∧
      faultIs (step (hostTurn (.read 0x200 4) State.reset)) (.busError 0x200 4 0) = true ∧
      faultIs (step (hostTurn (.read 0xFFC 4) State.reset)) (.busError 0xFFC 4 0) = true ∧
      faultIs (step (hostTurn (.write 0x030 1 5) State.reset)) (.busError 0x030 1 0) = true ∧
      faultIs (step (hostTurn (.read 0x1000 4) State.reset)) (.outsideWindow 0x1000) = true := by decide

/-- The same edges, inside. -/
theorem test_witness_BusErrorsAreExactlyTheIllegalAccesses :
    [0x000, 0x060, 0x100, 0x1FC].map (fun off => busTarget Config.default off 4) =
      [.ok .id, .ok .decCount, .ok (.frameBuf 0), .ok (.ptBuf 31)] ∧
    [0x064, 0x0FC, 0x200, 0xFFC, 0x061].map (fun off => busTarget Config.default off 4) =
      [.error (.busError 0x064 4 0), .error (.busError 0x0FC 4 0), .error (.busError 0x200 4 0),
       .error (.busError 0xFFC 4 0), .error (.busError 0x061 4 0)] ∧
    busTarget Config.default 0x000 1 = .error (.busError 0x000 1 0) := by decide

/-- V-BUS-1, V-BUS-5, V-BUS-7: reads of ID, of KEY0 after a write, and of CMD. -/
theorem test_reads :
    nextWith (step (hostTurn (.read 0x000 4) State.reset)) (fun t => t.env.hostReads == [0x00070001#32]) = true ∧
      readReg (.key 0) (writeReg (.key 0) 0x12345678#32 State.reset) = 0 ∧
      nextWith (step (hostTurn (.read 0x004 4) State.reset)) (fun t => t.env.hostReads == [0#32] && t.result == .ok) =
        true := by decide

/-- V-BUS-4, V-BUS-6, V-BUS-8, V-BUS-9. -/
theorem test_writes :
    writeReg .status 0xFFFFFFFF#32 State.reset = State.reset ∧ writeReg .id 5 State.reset = State.reset ∧
      readReg .frameLen (writeReg .frameLen 200 State.reset) = 0x80#32 ∧
      readReg .ptLen (writeReg .ptLen 129 State.reset) = 0x80#32 ∧
      readReg (.iv 0) (writeReg (.iv 0) 0xCAFEF00D#32 State.reset) = 0xCAFEF00D#32 ∧
      readReg (.ptBuf 31) (writeReg (.ptBuf 31) 0x11223344#32 State.reset) = 0x11223344#32 ∧
      (writeReg (.ptBuf 31) 0x11223344#32 State.reset).ptBytes 124 1 = [0x44#8] ∧
      (writeReg (.frameBuf 0) 0xA1B2C3D4#32 State.reset).frameBytes 0 1 = [0xD4#8] := by decide +kernel

/-- A write keeps the canonical form: a written zero leaves no cell. -/
theorem test_memory_canonical :
    (writeReg (.frameBuf 0) 0x00FF0000#32 State.reset).mem = [(0x102, 0xFF#8)] ∧
      (writeReg (.frameBuf 0) 0#32 (writeReg (.frameBuf 0) 0x00FF0000#32 State.reset)).mem = [] := by decide

/-- V-ILL-6 and V-ILL-9: an illegal host word finishes ILLEGAL_CMD. -/
theorem test_illegal_host_word :
    nextWith (issueHost 0x01000005#32 State.reset) (fun t => t == { State.reset with result := .illegalCmd }) = true ∧
      nextWith (issueHost 0x0120#32 State.reset) (fun t => statusWord t == 0x0A#32) = true := by decide +kernel

/-- V-MBX-7, V-MBX-8, V-LINK-16: illegal radio and network words are ignored. -/
theorem test_illegal_port_words :
    nextWith (issueRadio 0x01000210#32 State.reset) (fun t => t == State.reset) = true ∧
      nextWith (issueNetwork 0x0220#32 State.reset) (fun t => t == State.reset) = true := by decide +kernel

theorem test_witness_ArbiterKeepsEachPortsOrder :
    (hostTurn (.read 0x000 4) State.reset).env.schedule = [⟨.host, 0, 0⟩] ∧
      ∃ t, step (hostTurn (.read 0x000 4) State.reset) = .next t ∧ (t.env.host == []) = true :=
  ⟨rfl, next_of_nextWith _ _ (by decide)⟩

/-! Mailbox -/

/-- V-MBX-2 second post, V-MBX-5: the slot is filled with zeros beyond N. -/
theorem test_radioPost :
    nextWith (step (radioTurn 0x0110#32 (bytes 6 0xaabbccddeeff) State.reset))
      (fun t => t.slot == [(0, 0xAA#8)] && t.slotLen == 1 && t.slotRssi == 3 && t.slotSnr == 4 && t.mbxReady) = true ∧
    nextWith (exec (.radioPost 0) State.reset) (fun t => t.slot == [] && t.slotLen == 0 && t.mbxReady) = true := by
  decide

/-- V-MBX-1 and V-MBX-3. -/
theorem test_mbxTake :
    nextWith (exec .mbxTake { State.reset with mbxReady := true, slot := [(0, 1#8), (1, 2#8)], slotLen := 2, slotRssi := 0xFFFFFFB0#32, slotSnr := 7 })
      (fun t => t.result == .ok && !t.mbxReady && readReg (.frameBuf 0) t == 0x0201#32 && t.frameLen == 2 &&
        t.frameRssi == 0xFFFFFFB0#32 && t.frameSnr == 7) = true ∧
    nextWith (exec .mbxTake (frameIn (bytes 4 0xdeadbeef) State.reset))
      (fun t => t.result == .empty && t.frameLen == 0 && readReg (.frameBuf 0) t == 0xEFBEADDE#32) = true := by decide

theorem test_witness_TakeCopiesThePendingFrame :
    ({ State.reset with mbxReady := true } : State).mbxReady = true ∧ State.reset.mbxReady = false := by decide

theorem test_witness_OnlyTheRadioPortPosts :
    (radioTurn 0x0110#32 [] State.reset).nextPort = some .radio ∧
    (∃ t, step (radioTurn 0x0110#32 [] State.reset) = .next t ∧ t.mbxReady = true) ∧
    (networkTurn 0x120#32 State.reset).nextPort ≠ some .radio ∧
    ∃ t, step (networkTurn 0x120#32 State.reset) = .next t ∧ (t.link == .connected) = true :=
  ⟨rfl, next_of_nextWith _ _ (by decide), by decide, next_of_nextWith _ _ (by decide)⟩

/-! Cipher -/

/-- V-KEY-1 and V-KEY-2. -/
theorem test_keyLoad :
    nextWith (exec .keyLoad { State.reset with kst := testKey })
      (fun t => t.key == testKey && t.keyValid && t.kst == zeroBlock && t.result == .ok) = true ∧
    nextWith (exec .keyLoad { keyed with kst := Vector.replicate 16 0xFF#8 })
      (fun t => t.key == testKey && t.kst == zeroBlock && t.result == .keyLocked) = true := by decide

theorem test_witness_KeyLoadStoresTheStagedKeyOnce : State.reset.keyValid = false ∧ keyed.keyValid = true := by decide

/-- A first KEY_LOAD on the host port, one refused, and a network turn: the three cases. -/
theorem test_witness_OnlyTheFirstKeyLoadSetsTheKey :
    (∃ t, step (hostTurn (.write 0x004 4 0x01#32) { State.reset with kst := testKey }) = .next t ∧
      (t.key == testKey && t.keyValid) = true) ∧
    (∃ t, step (hostTurn (.write 0x004 4 0x01#32) keyed) = .next t ∧ (t.key == testKey) = true) ∧
    ∃ t, step (networkTurn 0x120#32 State.reset) = .next t ∧ (t.key == zeroBlock && !t.keyValid) = true :=
  ⟨next_of_nextWith _ _ (by decide), next_of_nextWith _ _ (by decide), next_of_nextWith _ _ (by decide)⟩

theorem test_witness_KeyIsNotReadOut :
    ∃ t, step (hostTurn (.read 0x010 4) { keyed with kst := testKey }) = .next t ∧ (t.decCount == keyed.decCount) = true :=
  next_of_nextWith _ _ (by decide)

/-- InvS undoes S (R253). -/
theorem test_invSbox_sbox : ∀ a : Fin 256, invSbox (sbox (BitVec.ofFin a)) = BitVec.ofFin a := by decide +kernel

/-- V-AES-1: FIPS 197 appendix C.1, and V-AES-2: appendix B. -/
theorem test_aesDec_known_answers :
    aesDec testKey (blockOfBytes (bytes 16 0x69c4e0d86a7b0430d8cdb78070b4c55a)) =
      blockOfBytes (bytes 16 0x00112233445566778899aabbccddeeff) ∧
    aesDec (blockOfBytes (bytes 16 0x2b7e151628aed2a6abf7158809cf4f3c))
      (blockOfBytes (bytes 16 0x3925841d02dc09fbdc118597196a0b32)) =
      blockOfBytes (bytes 16 0x3243f6a8885a308d313198a2e0370734) := by decide +kernel

/-- The plaintext of one ciphertext block under the test key and an IV of zeros, unpadded. -/
def plain (n : Nat) : Option (List Byte) := unpad (cbcDecrypt testKey 1 zeroBlock (bytes 16 n))

/-- V-CBC-1. -/
theorem test_plain_e7 : plain 0x3d29031a21fd382661c920c067f5e684 = some e7Record := by decide +kernel

/-- V-CIPH-6: a plaintext whose last byte is `00`. -/
theorem test_plain_badPadding : plain 0xc6a13b37878f5b826f4f8162a1c8d879 = none := by decide +kernel

/-- V-PIPE-8: a full block of padding. -/
theorem test_plain_fullPadding : plain 0x954f64f2e4e86e9eee82d20216684899 = some [] := by decide +kernel

/-- V-PIPE-5: the E7 record with checksum byte `00`. -/
theorem test_plain_badChecksum :
    plain 0x8d7a2be463ca2c9ca6c8b1614e8f7f1c = some (bytes 11 0xf401740ed70000f1536500) := by decide +kernel

/-- V-CBC-1. -/
theorem test_aesDecrypt :
    nextWith (exec (.aesDecrypt 16 16) (frameIn e7 keyed))
      (fun t => t.result == .ok && t.ptLen == 11 && t.ptBytes 0 12 == e7Record ++ [0] && t.decCount == 1) = true := by
  decide +kernel

/-- V-CIPH-2 and V-CIPH-3: the checks before the cipher, in their order. -/
theorem test_aesDecrypt_stopped :
    [(0, 0), (0, 15), (0, 17), (120, 16), (16, 8), (113, 16)].all (fun p =>
      nextWith (exec (.aesDecrypt p.1 p.2) (frameIn e7 keyed))
        (fun t => t.result == .invalidLength && t.decCount == 0)) = true ∧
    nextWith (exec (.aesDecrypt 16 16) (frameIn e7 State.reset)) (fun t => t.result == .cipherFail && t.decCount == 0) =
      true ∧
    nextWith (exec (.aesDecrypt 0 15) State.reset) (fun t => t.result == .invalidLength) = true := by decide

/-- Each clause, at the ends of its range: `(0, 0)`, `(0, 15)`, `(113, 16)` outside; `(112, 16)`, `(0, 128)` inside. -/
theorem test_witness_AesDecryptOutcomes :
    (let stops (off len : Nat) := len = 0 ∨ len % 16 ≠ 0 ∨ off + len > 128
     stops 0 0 ∧ stops 0 15 ∧ stops 113 16 ∧ stops 1 128 ∧ ¬ stops 112 16 ∧ ¬ stops 0 128 ∧ ¬ stops 0 16) ∧
    State.reset.keyValid = false ∧ keyed.keyValid = true ∧
    unpad (cbcDecrypt keyed.key 1 keyed.ivr (bytes 16 0xc6a13b37878f5b826f4f8162a1c8d879)) = none ∧
    unpad (cbcDecrypt keyed.key 1 keyed.ivr e7Block) = some e7Record :=
  ⟨by decide, by decide, by decide, test_plain_badPadding, test_plain_e7⟩

theorem test_witness_CbcChainsOnTheCiphertext :
    (bytes 32 0x0a940bb5416ef045f1c39458c653ea5af9c4f947937a24c2716861f9a987e054).length = 16 * 2 := by decide

/-- The ends of `1 <= p <= 16`: accepted at 1 and 16, refused at 0 and 17, and where one of the `p` bytes differs. -/
theorem test_witness_UnpadAcceptsExactlyPkcs7 :
    unpad (List.replicate 15 7#8 ++ [1#8]) = some (List.replicate 15 7#8) ∧
      unpad (List.replicate 16 16#8) = some [] ∧ unpad (List.replicate 16 0#8) = none ∧
      unpad (List.replicate 32 17#8) = none ∧ unpad (List.replicate 15 7#8 ++ [2#8]) = none ∧
      (List.replicate 15 7#8 ++ [1#8]).length % 16 = 0 := by decide

theorem test_witness_DecCountCountsTheCoreRuns :
    (∃ t, exec (.aesDecrypt 16 16) (frameIn e7 keyed) = .next t ∧ t.result = .ok) ∧
    (∃ t, exec .processFrame (frameIn e7 keyed) = .next t) ∧
    (∃ t, exec .decode keyed = .next t ∧ (t.decCount == 0) = true) ∧
    decode .host 0x08#32 = .error .reservedOpcode ∧
    ∃ t, issueHost 0x08#32 keyed = .next t ∧ (t.decCount == 0) = true := by
  obtain ⟨t, h, ht⟩ := next_of_nextWith _ _ test_aesDecrypt
  simp only [Bool.and_eq_true, beq_iff_eq] at ht
  exact ⟨⟨t, h, ht.1.1.1⟩, ⟨_, rfl⟩, next_of_nextWith _ _ (by decide), by decide, next_of_nextWith _ _ (by decide)⟩

/-- Two states that differ in the rest. -/
theorem test_witness_DecryptionDependsOnKeyIvAndCiphertext :
    let s1 := frameIn e7 keyed
    let s2 := recordIn e7Record { frameIn e7 keyed with decCount := 7, link := .connected }
    s1.keyValid = s2.keyValid ∧ s1.key = s2.key ∧ s1.ivr = s2.ivr ∧ s1.frameBytes 16 16 = s2.frameBytes 16 16 ∧
      s1 ≠ s2 := by decide

/-- The E7 record and its ciphertext (V-CBC-1): encrypted under the test key and an IV of zeros. -/
theorem e7_cbcEncrypts : CbcEncrypts testKey zeroBlock (e7Record ++ pad e7Record) e7Block := by
  refine ⟨by decide, by decide, fun j hj => ?_⟩
  have hl : (e7Record ++ pad e7Record).length = 16 := by decide
  obtain rfl : j = 0 := by omega
  decide +kernel

theorem test_witness_DecryptionInvertsEncryption :
    keyed.keyValid = true ∧ e7Record.length ≤ 111 ∧ CbcEncrypts keyed.key keyed.ivr (e7Record ++ pad e7Record) e7Block ∧
      112 + e7Block.length ≤ 128 ∧
      (frameIn (List.replicate 112 0 ++ e7Block) keyed).frameBytes 112 e7Block.length = e7Block ∧
      (frameIn e7 keyed).frameLen.toNat = 16 + e7Block.length ∧
      blockOfBytes ((frameIn e7 keyed).frameBytes 0 16) = zeroBlock ∧
      (frameIn e7 keyed).frameBytes 16 e7Block.length = e7Block :=
  ⟨by decide, by decide, e7_cbcEncrypts, by decide, by decide, by decide, by decide, by decide⟩

/-! Codec -/

/-- V-DEC-2 and V-DEC-3. -/
theorem test_decode_command :
    nextWith (exec .decode (recordIn (bytes 11 0xffffe40cceff7bf15365df) State.reset))
      (fun t => t.result == .ok && t.readingValid && t.sensorErr && t.rdIrr == 65535 && t.rdBatt == 3300 &&
        t.rdTemp == 0xFFFFFFCE#32 && t.rdTs == 1700000123 && t.rdCsum == 223) = true ∧
    nextWith (exec .decode (recordIn (bytes 11 0xf401740ed70000f1536500) { State.reset with readingValid := true, rdIrr := 500 }))
      (fun t => t.result == .checksumMismatch && !t.readingValid && t.rdIrr == 500) = true := by decide

/-- V-DEC-1, V-DEC-3 and V-DEC-4: the three clauses; PT_LEN 10 and 12 are the ends of the first. -/
theorem test_witness_DecodeOutcomes :
    (recordIn (bytes 10 0) State.reset).ptLen.toNat ≠ 11 ∧ (recordIn (bytes 12 0) State.reset).ptLen.toNat ≠ 11 ∧
    (let s := recordIn e7Record State.reset
     let b (i : Nat) : Nat := (s.mem.read (0x180 + i)).toNat
     s.ptLen.toNat = 11 ∧ (b 0 + b 1 + b 2 + b 3 + b 4 + b 5 + b 6 + b 7 + b 8 + b 9) % 256 = b 10) ∧
    (let s := recordIn (bytes 11 0xf401740ed70000f1536500) State.reset
     let b (i : Nat) : Nat := (s.mem.read (0x180 + i)).toNat
     s.ptLen.toNat = 11 ∧ (b 0 + b 1 + b 2 + b 3 + b 4 + b 5 + b 6 + b 7 + b 8 + b 9) % 256 ≠ b 10) := by decide

theorem test_witness_RecordDecodesToTheEncodedValues :
    let record : List Byte := bytes 10 0xf401740ed70000f15365
    (recordIn e7Record State.reset).ptLen = 11 ∧ (recordIn e7Record State.reset).ptBytes 0 11 = record ++ [0xF7#8] ∧
      0xF7#8 = record.sum ∧ 0x00#8 ≠ record.sum ∧
      record = [0x01F4#16, 0x0E74#16, 0x00D7#16].flatMap (fun h => [h.extractLsb' 0 8, h.extractLsb' 8 8]) ++
        lanes 0x6553F100#32 := by decide

/-! Link -/

/-- V-LINK-1 and V-LINK-4. -/
theorem test_linkTick :
    nextWith (exec .linkTick State.reset) (fun t => t == { connecting with netOut := [.beginConnect] }) = true ∧
    nextWith (exec .linkTick (atTime 1000 0xFFFFFFFF { State.reset with linkBackoff := 192000, hadBegun := true }))
      (fun t => t.netOut == [.reconnect] && t.linkBackoff == 300000 && t.linkJitter == 24135 && t.linkNext == 325135) =
      true := by decide +kernel

/-- V-LINK-9 (UP, then DOWN with the interval unset). -/
theorem test_linkEvent :
    nextWith (exec (.linkEvent true) State.reset) (fun t => t == connected) = true ∧
    nextWith (exec (.linkEvent false) (atTime 100 0 { State.reset with link := .connected }))
      (fun t => t.link == .disconnected && t.linkBackoff == 3000 && t.linkNext == 0 && t.lastNow == 100) = true := by
  decide +kernel

/-- V-LINK-18. -/
theorem test_forceReconnect :
    nextWith (exec .forceReconnect { connecting with linkBackoff := 6000, linkNext := 38007 })
      (fun t => !t.hadBegun && t.linkBackoff == 0 && t.linkNext == 0 && t.link == .connecting && t.result == .ok) =
      true := by decide

/-- The three clauses; V-LINK-5 and V-LINK-6 are the two sides of the deadline. -/
theorem test_witness_LinkTickOutcomes :
    State.reset.cfg.Admissible ∧ connected.link = .connected ∧ connecting.link ≠ .connected ∧
      (atTime 2999 0 connecting).env.time.toNat < connecting.linkNext.toNat ∧
      connecting.linkNext.toNat ≤ (atTime 3000 0 connecting).env.time.toNat := by decide

theorem test_witness_LinkEventOutcomes :
    State.reset.cfg.Admissible ∧ connected.link = .connected ∧ State.reset.link ≠ .connected := by decide

theorem test_witness_FirstTickLaw :
    State.reset.cfg.Admissible ∧ State.reset.link = .disconnected ∧ State.reset.linkBackoff = 0 ∧
      State.reset.linkNext = 0 ∧ State.reset.env.time = 0 := by decide

/-- V-LINK-3: the ninth interval is the ceiling. -/
theorem test_witness_RepeatedTicksDoubleUpToTheCeiling :
    State.reset.cfg.Admissible ∧ State.reset.link ≠ .connected ∧ State.reset.linkBackoff = 0 ∧
      ((List.replicate 8 0#32).foldl retryTick State.reset).linkBackoff = 300000 := by decide

theorem test_witness_AttemptsComeOnlyFromDueTicks :
    (∃ t, step (hostTurn (.write 0x004 4 0x05#32) State.reset) = .next t ∧ (t.netOut == [.beginConnect]) = true) ∧
    ∃ t, step (hostTurn (.write 0x004 4 0x05#32) connecting) = .next t ∧ (t.netOut == []) = true :=
  ⟨next_of_nextWith _ _ (by decide), next_of_nextWith _ _ (by decide)⟩

theorem test_witness_LinkTransitions :
    (∃ t, step (hostTurn (.write 0x004 4 0x05#32) State.reset) = .next t ∧ (t.link == .connecting) = true) ∧
    (∃ t, step (networkTurn 0x120#32 State.reset) = .next t ∧ (t.link == .connected) = true) ∧
    ∃ t, step (networkTurn 0x020#32 connected) = .next t ∧ (t.link == .disconnected) = true :=
  ⟨next_of_nextWith _ _ (by decide), next_of_nextWith _ _ (by decide), next_of_nextWith _ _ (by decide)⟩

/-! Pipeline -/

/-- V-E2E-1 and V-PIPE-9. -/
theorem test_processFrame :
    nextWith (exec .processFrame (frameIn e7 { keyed with link := .connected, linkNext := 12000 }))
      (fun t => statusWord t == 0x1890#32 && t.rdIrr == 500 && t.rdBatt == 3700 && t.rdTemp == 215 &&
        t.rdTs == 1700000000 && t.rdCsum == 247 && t.ptLen == 11 && t.decCount == 1) = true ∧
    nextWith (exec .processFrame (frameIn (bytes 32
        0x101112131415161718191a1b1c1d1e1fcef130046fcdc258d47b58ce83642a37) { keyed with link := .connected }))
      (fun t => t.publish && t.sensorErr && t.rdTemp == 4294967246 && t.ivr == zeroBlock) = true := by decide +kernel

/-- V-PIPE-3, V-PIPE-4b and V-PIPE-7: the stages before the decryption, in their order. -/
theorem test_processFrame_stopped :
    nextWith (exec .processFrame (frameIn (bytes 30 0) { keyed with link := .connected })) (fun t => statusWord t == 0x92#32) =
      true ∧
    nextWith (exec .processFrame (frameIn (bytes 40 0) State.reset)) (fun t => t.result == .frameAlign) = true ∧
    nextWith (exec .processFrame (frameIn e7 State.reset)) (fun t => t.result == .cipherFail && t.decCount == 0) = true := by
  decide

/-- NOP after an ILLEGAL_CMD (R317, V-DEC-11). -/
theorem test_nop :
    nextWith (exec .nop { State.reset with result := .sizeMismatch }) (fun t => t == State.reset) = true := by decide +kernel

/-- The lengths 31, 32 and 33 at the clauses' ends. -/
theorem test_witness_FramingIsCheckedFirst :
    (frameIn (bytes 31 0) State.reset).frameLen.toNat < 32 ∧
      32 ≤ (frameIn (bytes 33 0) State.reset).frameLen.toNat ∧
      ((frameIn (bytes 33 0) State.reset).frameLen.toNat - 16) % 16 ≠ 0 ∧
      ¬ (frameIn (bytes 32 0) State.reset).frameLen.toNat < 32 := by decide

/-- V-PIPE-7, V-PIPE-6, V-PIPE-8, V-PIPE-5 and V-E2E-1: one frame for each clause; and the longest length, 128. -/
theorem test_witness_ProcessFrameStages :
    let ok (B : List Byte) : Prop := 32 ≤ (frameIn B keyed).frameLen.toNat ∧ (frameIn B keyed).frameLen.toNat ≤ 128 ∧
      ((frameIn B keyed).frameLen.toNat - 16) % 16 = 0
    ok e7 ∧ ok (bytes 128 0) ∧ State.reset.keyValid = false ∧ keyed.keyValid = true ∧
      plain 0xc6a13b37878f5b826f4f8162a1c8d879 = none ∧ plain 0x954f64f2e4e86e9eee82d20216684899 = some [] ∧
      plain 0x8d7a2be463ca2c9ca6c8b1614e8f7f1c = some (bytes 11 0xf401740ed70000f1536500) ∧
      sum8 (bytes 11 0xf401740ed70000f1536500) 0 10 ≠ 0 ∧
      plain 0x3d29031a21fd382661c920c067f5e684 = some e7Record ∧ e7Record.length = 11 ∧
      sum8 e7Record 0 10 = (e7Record.getD 10 0).toNat :=
  ⟨by decide, by decide +kernel, by decide, by decide, test_plain_badPadding, test_plain_fullPadding, test_plain_badChecksum,
    by decide, test_plain_e7, by decide, by decide⟩

theorem test_witness_PublishGate :
    (∃ t, exec .processFrame (frameIn e7 keyed) = .next t) ∧
    ∃ t, exec .nop { State.reset with publish := true } = .next t ∧ t.publish = true :=
  ⟨⟨_, rfl⟩, next_of_nextWith _ _ (by decide)⟩

theorem test_witness_PollOfAnEmptyMailbox : keyed.mbxReady = false := by decide

/-! The whole machine -/

/-- A state that has the invariants and is not reset: a frame of two bytes in the slot, the link Connecting, and a
RADIO_POST to perform. -/
theorem test_witness_EveryStepKeepsTheInvariants :
    ∃ s t : State, s.Inv ∧ step s = .next t ∧ (t.slotLen == 32) = true := by
  let s := radioTurn 0x2010#32 e7 { connecting with slot := [(0, 1#8), (1, 2#8)], slotLen := 2, mbxReady := true }
  obtain ⟨t, h, ht⟩ := next_of_nextWith (step s) (fun t => t.slotLen == 32) (by decide)
  refine ⟨s, t, ?_, h, ht⟩
  exact {
    slotLen_le := by decide
    frameLen_le := by decide
    ptLen_le := by decide
    slot_zero := fun i h2 h128 => by
      have : 2 ≤ i := h2
      simp [s, radioTurn, Memory.read, show ¬ 0 = i by omega, show ¬ 1 = i by omega]
    backoff_range := .inr (by decide)
    jitter_le := by decide
    sensor_iff := by decide
    key_zero := fun _ => rfl
    temp_sext := by decide
    mem_wf := by decide
    slot_wf := by decide
    mem_bounds := by decide
    slot_bounds := by decide }

/-- A served state in which the host has an illegal command word, a buffer write and a read still to issue. -/
theorem test_witness_NoInputStopsTheBlock :
    ({ State.reset with env := { Env.reset with
        host := [.write 0x004 4 0xFFFFFFFF#32, .write 0x1FC 4 1, .read 0x008 4], radio := [], network := [0x0220#32]
        schedule := [⟨.host, 0, 0⟩, ⟨.network, 0, 0⟩, ⟨.radio, 0, 0⟩, ⟨.host, 0, 0⟩, ⟨.host, 0, 0⟩] } } : State).Served := by
  refine ⟨by decide, fun a ha => ?_⟩
  simp only [List.mem_cons, List.not_mem_nil, or_false] at ha
  obtain rfl | rfl | rfl := ha
  · exact ⟨.cmd, by decide⟩
  · exact ⟨.ptBuf 31, by decide⟩
  · exact ⟨.status, by decide⟩

/-- The bounds of R10 at their ends: a floor of 1 is admissible, a floor of 0 and a floor above the ceiling are not, and a
ceiling whose largest interval does not fit 32 bits is not. -/
theorem test_witness_ConfigurationIsFixedAndChecked :
    (∃ t, step (networkTurn 0x120#32 { State.reset with cfg := { Config.default with backoffFloor := 1 } }) = .next t ∧
      (t.linkBackoff == 1) = true) ∧
    ¬ ({ Config.default with backoffFloor := 0 } : Config).Admissible ∧
    ¬ ({ Config.default with backoffFloor := 300001 } : Config).Admissible ∧
    ¬ ({ Config.default with backoffCeil := 3904515724 } : Config).Admissible ∧
    ({ Config.default with backoffCeil := 3904515723 } : Config).Admissible :=
  ⟨next_of_nextWith _ _ (by decide), by decide, by decide, by decide, by decide⟩

theorem test_witness_ResultIsWrittenByHostCommandsOnly :
    ∃ t, step (hostTurn (.write 0x004 4 0x07#32) State.reset) = .next t ∧ (t.result != State.reset.result) = true :=
  next_of_nextWith _ _ (by decide)

theorem test_witness_NetworkPortWritesOnlyTheLink :
    (networkTurn 0x120#32 State.reset).nextPort = some .network ∧
      ∃ t, step (networkTurn 0x120#32 State.reset) = .next t ∧ (t.link == .connected) = true :=
  ⟨rfl, next_of_nextWith _ _ (by decide)⟩

/-! The assembly language (R162) -/

/-- The words of P1's LDKEY line. -/
theorem test_ldkey :
    ldkey (bytes 16 0x000102030405060708090a0b0c0d0e0f) =
      [.wr (.key 0) 0x03020100#32, .wr (.key 1) 0x07060504#32, .wr (.key 2) 0x0B0A0908#32, .wr (.key 3) 0x0F0E0D0C#32,
       .command .keyLoad] := by decide

/-- LDPT of a record: three words, the last padded with a zero byte, and the length. -/
theorem test_ldpt :
    ldpt e7Record = [.wr (.ptBuf 0) 0x0E7401F4#32, .wr (.ptBuf 1) 0xF10000D7#32, .wr (.ptBuf 2) 0x00F76553#32,
      .wr .ptLen 11] := by decide

end Sys2Proof.Tests
end

/-! The configuration (00_scope R9, R10) -/

namespace Sys2Proof.Machine

/-- A step keeps the parameters of R9: the arbiter and the ports touch the environment alone, a register write and a
command leave the configuration (`writeReg_env`, `exec_env`). -/
theorem step_cfg (s t : State) (h : step s = .next t) : t.cfg = s.cfg := by
  obtain ⟨-, rfl | ⟨turn, rest, -, rfl | host | radio | network⟩⟩ := step_effects s t h
  · rfl
  · rfl
  · obtain ⟨a, as, -, -, ⟨v, rfl⟩ | ⟨r, v, rfl⟩ | ⟨v, -, ⟨i, -, hexec⟩ | rfl⟩⟩ := host
    · rfl
    · exact (writeReg_env _ _ _).2
    · exact (exec_env _ _ _ hexec).2
    · rfl
  · obtain ⟨q, qs, -, -, ⟨n, hexec⟩ | rfl⟩ := radio
    · exact (exec_env _ _ _ hexec).2
    · rfl
  · obtain ⟨w, ws, -, -, ⟨up, hexec⟩ | rfl⟩ := network
    · exact (exec_env _ _ _ hexec).2
    · rfl

/-- R10: `step` refuses a configuration outside the bounds, whatever is scheduled. -/
theorem step_refused_of_not_admissible (s : State) (h : ¬ s.cfg.Admissible) :
    step s = .refused .configurationOutOfBounds :=
  if_neg h

/-- Settles O48: the configuration is kept by every item a step can perform, and the bounds the statement writes out are
those of `Config.Admissible`. -/
theorem configurationIsFixedAndChecked : Obligations.ConfigurationIsFixedAndChecked :=
  ⟨step_cfg, step_refused_of_not_admissible⟩

end Sys2Proof.Machine

/-! What a step does to the block apart from its environment -/

namespace Sys2Proof.Machine

/-- What a step does to the block: nothing, one register write, one CMD word of the host, one RADIO_POST or one
LINK_EVENT, at the state that has the environment the step leaves. -/
theorem step_block_cases (s t : State) (h : step s = .next t) :
    t = { s with env := t.env } ∨
    (∃ r v, t = writeReg r v { s with env := t.env }) ∨
    (∃ w, s.IssuesHostWord w ∧
      ((∃ i, decode .host w = .ok i ∧ exec i { s with env := t.env } = .next t) ∨
        t = State.finish .illegalCmd { s with env := t.env })) ∨
    (∃ n, exec (.radioPost n) { s with env := t.env } = .next t) ∨
    (∃ up, exec (.linkEvent up) { s with env := t.env } = .next t) := by
  obtain ⟨-, rfl | ⟨turn, rest, hs, rfl | host | radio | network⟩⟩ := step_effects s t h
  · exact .inl rfl
  · exact .inl rfl
  · obtain ⟨a, as, hp, ha, ⟨v, rfl⟩ | ⟨r, v, rfl⟩ | ⟨v, rfl, cmd⟩⟩ := host
    · exact .inl rfl
    · exact .inr (.inl ⟨r, v, by rw [(writeReg_env r v _).1]; rfl⟩)
    · refine .inr (.inr (.inl ⟨v, ⟨turn, rest, as, hs, hp, ha⟩, ?_⟩))
      obtain ⟨i, hi, hexec⟩ | rfl := cmd
      · exact .inl ⟨i, hi, by rw [(exec_env i _ t hexec).1]; exact hexec⟩
      · exact .inr rfl
  · obtain ⟨q, qs, -, -, ⟨n, hexec⟩ | rfl⟩ := radio
    · exact .inr (.inr (.inr (.inl ⟨n, by rw [(exec_env _ _ t hexec).1]; exact hexec⟩)))
    · exact .inl rfl
  · obtain ⟨w, ws, -, -, ⟨up, hexec⟩ | rfl⟩ := network
    · exact .inr (.inr (.inr (.inr ⟨up, by rw [(exec_env _ _ t hexec).1]; exact hexec⟩)))
    · exact .inl rfl

/-! The invariants (10_state R91): the operations every unit shares -/

theorem State.Inv.withEnv {s : State} (h : s.Inv) (e : Env) : State.Inv { s with env := e } :=
  { h with }

theorem State.Inv.finish {s : State} (h : s.Inv) (code : ResultCode) : (s.finish code).Inv :=
  { h with }

theorem State.Inv.storeWindow {s : State} (h : s.Inv) {off : Nat} {bs : List Byte} (lo : 0x100 ≤ off)
    (hi : off + bs.length ≤ 0x200) : (s.storeWindow off bs).Inv :=
  { h with
    mem_wf := writeBytes_wf _ _ _ h.mem_wf
    mem_bounds := fun c hc => by
      obtain old | ⟨hlo, hhi⟩ := writeBytes_bounds _ _ _ c hc
      · exact h.mem_bounds c old
      · exact ⟨lo.trans hlo, hhi.trans_le hi⟩ }

theorem clampLen_le (v : Word) : (clampLen v).toNat ≤ 128 := by
  rw [clampLen_toNat]
  exact min_le_right _ _

/-- A host write keeps the invariants: the lengths are clamped and a buffer word lies in its buffer (R55, R58, R70, R71). -/
theorem State.Inv.writeReg {s : State} (h : s.Inv) (r : Reg) (v : Word) : (writeReg r v s).Inv := by
  cases r with
  | frameLen => exact { h with frameLen_le := clampLen_le v }
  | ptLen => exact { h with ptLen_le := clampLen_le v }
  | frameBuf k =>
    have inside : (s.storeWindow (frameBase + 4 * k.val) (lanes v)).Inv :=
      h.storeWindow (Nat.le_add_right _ _) (by rw [lanes_length]; simp only [frameBase]; omega)
    exact inside
  | ptBuf k =>
    have inside : (s.storeWindow (ptBase + 4 * k.val) (lanes v)).Inv :=
      h.storeWindow (by simp only [ptBase]; omega) (by rw [lanes_length]; simp only [ptBase]; omega)
    exact inside
  | key k | iv k | frameRssi | frameSnr => simp only [Sys2Proof.Machine.writeReg]; exact { h with }
  | _ => exact h

/-! The invariants: the stages of the pipeline -/

/-- What the CBC core answers with is no longer than its ciphertext. -/
theorem length_unpad_cbcDecrypt_le {k iv : Block} {ct P : List Byte}
    (h : unpad (cbcDecrypt k (ct.length / 16) iv ct) = some P) : P.length ≤ ct.length := by
  obtain ⟨p, -, -, rfl, -⟩ := unpad_some _ _ h
  rw [List.length_take, cbcDecrypt_length]
  omega

theorem State.Inv.cbcCore {s : State} (h : s.Inv) (iv : Block) {ct : List Byte} (hct : ct.length ≤ 128) :
    (cbcCore iv ct s).2.Inv := by
  obtain ⟨-, e⟩ | ⟨-, -, e⟩ | ⟨P, -, hP, e⟩ := cbcCore_cases iv ct s <;> rw [e]
  · exact h
  · exact { h with }
  · have hlen := length_unpad_cbcDecrypt_le hP
    have hmem : (s.storeWindow ptBase (fill128 P P.length)).Inv := h.storeWindow (by decide) (by simp [ptBase])
    exact { hmem with ptLen_le := by simp only [BitVec.toNat_ofNat]; omega }

/-- The low half of a sign-extended half is the half. -/
theorem extractLsb'_signExtend (v : Half) : (v.signExtend 32).extractLsb' 0 16 = v := by
  apply BitVec.eq_of_getLsbD_eq
  intro i hi
  simp [BitVec.getElem_signExtend, hi, show i < 32 by omega]

/-- A latched reading has SENSOR_ERR as R51 says and RD_TEMP sign-extended (R61). -/
theorem State.Inv.latchReading {s : State} (h : s.Inv) (B : List Byte) : (s.latchReading B).Inv :=
  { h with
    sensor_iff := by
      have := le16_lt B 0
      simp only [State.latchReading, beq_iff_eq, irrSentinel, true_and, ← BitVec.toNat_inj, BitVec.toNat_ofNat]
      omega
    temp_sext := by
      simp only [State.latchReading, sext32, extractLsb'_signExtend] }

theorem State.Inv.dropReading {s : State} (h : s.Inv) : s.dropReading.Inv :=
  { h with sensor_iff := by simp [State.dropReading] }

theorem State.Inv.decodeStage {s : State} (h : s.Inv) : (decodeStage s).2.Inv := by
  obtain ⟨-, e⟩ | ⟨-, -, e⟩ | ⟨-, -, e⟩ := decodeStage_cases s <;> rw [e]
  · exact h.dropReading
  · exact h.dropReading
  · exact h.latchReading _

theorem State.Inv.runStages {s : State} (h : s.Inv) (iv : Block) {ct : List Byte} (hct : ct.length ≤ 128) :
    (runStages iv ct s).2.Inv := by
  have hcore := h.cbcCore iv hct
  obtain ⟨-, e⟩ | ⟨-, -, e⟩ | ⟨-, -, e⟩ := runStages_cases iv ct s <;> rw [e]
  · exact hcore
  · exact hcore.decodeStage
  · exact { hcore.decodeStage with }

/-! The invariants: the commands -/

theorem State.Inv.execKeyLoad {s t : State} (h : s.Inv) (hexec : execKeyLoad s = .next t) : t.Inv := by
  obtain ⟨-, rfl⟩ | ⟨-, rfl⟩ := execKeyLoad_cases s t hexec
  · exact { h with }
  · exact { h with key_zero := fun hk => absurd hk (by simp) }

theorem State.Inv.execAesDecrypt {s t : State} {off len : Nat} (h : s.Inv)
    (hexec : execAesDecrypt off len s = .next t) : t.Inv := by
  obtain ⟨-, rfl⟩ | ⟨-, -, hlen, rfl⟩ := execAesDecrypt_cases off len s t hexec
  · exact h.finish _
  · exact (h.cbcCore _ (by simp only [State.frameBytes, readBytes_length]; omega)).finish _

theorem State.Inv.execMbxTake {s t : State} (h : s.Inv) (hexec : execMbxTake s = .next t) : t.Inv := by
  obtain ⟨-, rfl⟩ | ⟨-, rfl⟩ := execMbxTake_cases s t hexec
  · have hmem : (s.storeWindow frameBase (s.slot.readBytes 0 slotCap)).Inv :=
      h.storeWindow (by decide) (by simp [frameBase, slotCap])
    exact { hmem with frameLen_le := h.slotLen_le }
  · exact { h with frameLen_le := by simp }

theorem State.Inv.execProcessFrame {s t : State} (h : s.Inv) (hexec : execProcessFrame s = .next t) : t.Inv := by
  have hpub : State.Inv { s with publish := false } := { h with }
  obtain ⟨-, rfl⟩ | ⟨-, -, rfl⟩ | ⟨-, -, r, rfl, rfl⟩ := execProcessFrame_cases s t hexec
  · exact hpub.finish _
  · exact hpub.finish _
  · have hlen := h.frameLen_le
    exact (hpub.runStages _ (by simp only [State.frameBytes, readBytes_length]; omega)).finish _

/-- A delivery is truncated to 128 bytes and the slot's other bytes are cleared (R201, R202). -/
theorem State.Inv.execRadioPost {s t : State} {n : Nat} (h : s.Inv) (hexec : execRadioPost n s = .next t) : t.Inv := by
  cases hexec
  have hlen : (BitVec.ofNat 8 (min n slotCap)).toNat = min n 128 := by
    simp only [slotCap, BitVec.toNat_ofNat]; omega
  exact { h with
    slotLen_le := by simp only [hlen]; omega
    slot_zero := fun i hlo hhi => by
      simp only [hlen] at hlo
      simp only [read_writeBytes, fill128_length, slotCap]
      rw [if_pos ⟨by omega, by omega⟩, Nat.sub_zero, fill128_getD _ _ _ hhi, if_neg (by omega)]
    slot_wf := writeBytes_wf _ _ _ h.slot_wf
    slot_bounds := fun c hc => by
      obtain old | ⟨-, hhi⟩ := writeBytes_bounds _ _ _ c hc
      · exact h.slot_bounds c old
      · simpa using hhi }

theorem backoffCeil_lt {cfg : Config} (hadm : cfg.Admissible) : cfg.backoffCeil < 2 ^ 32 := by
  obtain ⟨-, -, hsum, -⟩ := hadm
  exact (Nat.le_add_right _ _).trans_lt hsum

/-- An attempt's backoff stays between the floor and the ceiling and its jitter below a tenth of the ceiling
(R283, R284). -/
theorem State.Inv.attemptLink {s : State} (h : s.Inv) (hadm : s.cfg.Admissible) (now r : Word) :
    (attemptLink now r s).Inv := by
  have hb := nextInterval_range s.cfg hadm s.linkBackoff.toNat
  have hj := Sys2Proof.Machine.jitter_le (nextInterval s.cfg s.linkBackoff.toNat) r.toNat
  have hc := backoffCeil_lt hadm
  exact { h with
    backoff_range := .inr (by
      simp only [Sys2Proof.Machine.attemptLink, BitVec.toNat_ofNat]
      rwa [Nat.mod_eq_of_lt (by omega)])
    jitter_le := by
      simp only [Sys2Proof.Machine.attemptLink, BitVec.toNat_ofNat]
      omega }

theorem State.Inv.execLinkTick {s t : State} (h : s.Inv) (hadm : s.cfg.Admissible)
    (hexec : execLinkTick s = .next t) : t.Inv := by
  have hnow : State.Inv { s with lastNow := s.env.time, attempt := .noAttempt } := { h with }
  obtain ⟨-, n, rfl⟩ | ⟨-, -, rfl⟩ | ⟨-, -, rfl⟩ := execLinkTick_cases s t hexec
  · exact { h with }
  · exact hnow.finish _
  · exact (hnow.attemptLink hadm _ _).finish _

/-- LINK_EVENT leaves LINK_BACKOFF or sets it to the floor (R289, R290). -/
theorem execLinkEvent_linkBackoff {up : Bool} {s t : State} (h : execLinkEvent up s = .next t) :
    t.linkBackoff = s.linkBackoff ∨ t.linkBackoff = BitVec.ofNat 32 s.cfg.backoffFloor := by
  simp only [execLinkEvent] at h
  repeat' split at h
  all_goals
    simp only [Host.Outcome.next.injEq] at h
    subst h
    simp_all

theorem State.Inv.execLinkEvent {s t : State} {up : Bool} (h : s.Inv) (hadm : s.cfg.Admissible)
    (hexec : execLinkEvent up s = .next t) : t.Inv := by
  have hfloor : s.cfg.backoffFloor ≤ s.cfg.backoffCeil := hadm.2.1
  rw [(execLinkEvent_frame up s t hexec).1]
  exact { h with
    backoff_range := by
      obtain e | e := execLinkEvent_linkBackoff hexec <;> simp only [e]
      · exact h.backoff_range
      · rw [BitVec.toNat_ofNat, Nat.mod_eq_of_lt (hfloor.trans_lt (backoffCeil_lt hadm))]
        exact .inr ⟨le_rfl, hfloor⟩ }

/-- Every command keeps the invariants, on every operand. -/
theorem State.Inv.exec {s t : State} {i : Instr} (h : s.Inv) (hadm : s.cfg.Admissible)
    (hexec : exec i s = .next t) : t.Inv := by
  cases i with
  | nop => cases hexec; exact h.finish _
  | keyLoad => exact h.execKeyLoad hexec
  | aesDecrypt off len => exact h.execAesDecrypt hexec
  | decode => cases hexec; exact h.decodeStage.finish _
  | mbxTake => exact h.execMbxTake hexec
  | linkTick => exact h.execLinkTick hadm hexec
  | forceReconnect => cases hexec; exact { h with backoff_range := .inl rfl }
  | processFrame => exact h.execProcessFrame hexec
  | radioPost n => exact h.execRadioPost hexec
  | linkEvent up => exact h.execLinkEvent hadm hexec

/-- Settles O44: the environment is no part of the invariants, and each thing a step can do to the block keeps them. -/
theorem everyStepKeepsTheInvariants : Obligations.EveryStepKeepsTheInvariants := by
  intro s t hinv hstep
  have hadm := (step_effects s t hstep).1
  have henv := hinv.withEnv t.env
  obtain e | ⟨r, v, e⟩ | ⟨w, -, ⟨i, -, hexec⟩ | e⟩ | ⟨n, hexec⟩ | ⟨up, hexec⟩ := step_block_cases s t hstep
  · exact e ▸ henv
  · exact e ▸ henv.writeReg r v
  · exact henv.exec hadm hexec
  · exact e ▸ henv.finish _
  · exact henv.exec hadm hexec
  · exact henv.exec hadm hexec

/-- Settles O45: at reset both memories are empty and every bounded element is 0 (R90). -/
theorem resetHasTheInvariants : Obligations.ResetHasTheInvariants where
  slotLen_le := by decide
  frameLen_le := by decide
  ptLen_le := by decide
  slot_zero := fun _ _ _ => rfl
  backoff_range := .inl rfl
  jitter_le := by decide
  sensor_iff := by decide
  key_zero := fun _ => rfl
  temp_sext := by decide
  mem_wf := by decide
  slot_wf := by decide
  mem_bounds := by decide
  slot_bounds := by decide

end Sys2Proof.Machine

/-! The STATUS register (10_state R42) -/

namespace Sys2Proof.Machine

theorem ResultCode.code_le (c : ResultCode) : c.code ≤ 10 := by cases c <;> decide

theorem LinkState.code_le (l : LinkState) : l.code ≤ 2 := by cases l <;> decide

theorem Attempt.code_le (a : Attempt) : a.code ≤ 2 := by cases a <;> decide

/-- Each field of STATUS fits its bits. -/
theorem statusFields_le (s : State) :
    s.result.code ≤ 10 ∧ s.keyValid.toNat ≤ 1 ∧ s.mbxReady.toNat ≤ 1 ∧ s.link.code ≤ 2 ∧ s.hadBegun.toNat ≤ 1 ∧
      s.attempt.code ≤ 2 ∧ s.publish.toNat ≤ 1 ∧ s.readingValid.toNat ≤ 1 ∧ s.sensorErr.toNat ≤ 1 :=
  ⟨s.result.code_le, s.keyValid.toNat_le, s.mbxReady.toNat_le, s.link.code_le, s.hadBegun.toNat_le,
    s.attempt.code_le, s.publish.toNat_le, s.readingValid.toNat_le, s.sensorErr.toNat_le⟩

theorem toNat_extractLsb'_eq (v : Word) (lo n : Nat) : (v.extractLsb' lo n).toNat = v.toNat / 2 ^ lo % 2 ^ n := by
  rw [BitVec.extractLsb'_toNat, Nat.shiftRight_eq_div_pow]

theorem getLsbD_eq_of_toNat {v : Word} {k : Nat} {b : Bool} (h : v.toNat / 2 ^ k % 2 = b.toNat) : v.getLsbD k = b := by
  rw [BitVec.getLsbD, Nat.testBit_eq_decide_div_mod_eq, h]
  cases b <;> rfl

/-- STATUS as a number: its fields' sum, which fits the word. -/
theorem readReg_status_toNat (s : State) :
    (readReg .status s).toNat =
      s.result.code + s.keyValid.toNat * 2 ^ 4 + s.mbxReady.toNat * 2 ^ 5 + s.link.code * 2 ^ 6 +
        s.hadBegun.toNat * 2 ^ 8 + s.attempt.code * 2 ^ 9 + s.publish.toNat * 2 ^ 11 +
        s.readingValid.toNat * 2 ^ 12 + s.sensorErr.toNat * 2 ^ 13 := by
  have := statusFields_le s
  rw [readReg, statusWord, BitVec.toNat_ofNat, Nat.mod_eq_of_lt (by omega)]

/-- Settles O11: STATUS is the sum of its fields, each below the next one's weight. -/
theorem statusFieldsStandInTheirPlaces : Obligations.StatusFieldsStandInTheirPlaces := by
  intro s
  have hsum := readReg_status_toNat s
  have := statusFields_le s
  refine ⟨?result, getLsbD_eq_of_toNat ?keyValid, getLsbD_eq_of_toNat ?mbxReady, ?link, getLsbD_eq_of_toNat ?hadBegun,
    ?attempt, getLsbD_eq_of_toNat ?publish, getLsbD_eq_of_toNat ?readingValid, getLsbD_eq_of_toNat ?sensorErr,
    BitVec.eq_of_toNat_eq ?zero, fun _ => rfl⟩
  case result | link | attempt => rw [toNat_extractLsb'_eq]; omega
  case zero => rw [toNat_extractLsb'_eq]; change _ = 0; omega
  all_goals omega

/-! The reset values (10_state R90) -/

/-- Settles O46: no register of the window but ID reads anything but 0 at reset, its buffers' words included. -/
theorem resetValues : Obligations.ResetValues := by
  refine ⟨fun r hr => ?_, rfl, rfl, rfl, rfl, fun _ => rfl, rfl, rfl, rfl, rfl⟩
  cases r with
  | id => exact absurd rfl hr
  | key k | iv k | frameBuf k | ptBuf k => revert k; decide
  | _ => decide

/-! One served item (20_memory R110, R111) -/

theorem step_eq_servePort {s : State} {turn : Turn} {rest : List Turn} (hadm : s.cfg.Admissible)
    (hs : s.env.schedule = turn :: rest) :
    step s = servePort turn.port (s.takeTurn turn rest) := by
  rw [step, if_pos hadm, runTurn, hs]

theorem step_eq_self {s : State} (hadm : s.cfg.Admissible) (hs : s.env.schedule = []) : step s = .next s := by
  rw [step, if_pos hadm, runTurn, hs]

/-- A read of a register returns its value (R102). -/
theorem hostAccess_read_reg (r : Reg) (s : State) :
    hostAccess (.read (s.cfg.hostBase + r.offset) 4) s = .next (s.returnRead (readReg r s)) := by
  simp only [hostAccess, busTarget_offset]

/-- A write to a register other than CMD updates it (R103, R104). -/
theorem hostAccess_write_reg {r : Reg} (hr : r ≠ .cmd) (v : Word) (s : State) :
    hostAccess (.write (s.cfg.hostBase + r.offset) 4 v) s = .next (writeReg r v s) := by
  simp only [hostAccess, busTarget_offset, if_neg hr]

/-- A write of `w` to CMD issues `w` (R41). -/
theorem hostAccess_write_cmd (w : Word) (s : State) :
    hostAccess (.write (cmdAddr s.cfg) 4 w) s = issueHost w s := by
  simp only [hostAccess, cmdAddr, busTarget_offset, if_true]

/-- Settles O8: each port's turn takes the word off its agent's list and runs what the word decodes to. -/
theorem stepRunsTheDecodedCommand : Obligations.StepRunsTheDecodedCommand := by
  intro s turn rest i hadm hs
  rw [step_eq_servePort hadm hs]
  refine ⟨fun w as hp ha hi => ?_, fun q qs hp hq hi => ?_, fun w ws hp hw hi => ?_⟩
  · rw [hp, servePort, takeTurn_env_host, ha]
    exact (hostAccess_write_cmd w _).trans (by rw [issueHost, hi])
  · rw [hp, servePort, takeTurn_env_radio, hq]
    simp only [issueRadio, hi]
  · rw [hp, servePort, takeTurn_env_network, hw]
    simp only [issueNetwork, hi]

end Sys2Proof.Machine

namespace Sys2Proof

/-! The host's command words (30_encoding R141, R147, R151) -/

/-- The fields of format H make up the word (R141). -/
theorem toNat_eq_hostFields (w : Word) :
    w.toNat = fieldOP w + fieldA w * 2 ^ 8 + fieldB w * 2 ^ 16 + fieldRSV w * 2 ^ 24 := by
  have := w.isLt
  simp only [fieldOP, fieldA, fieldB, fieldRSV, bits]
  omega

theorem fieldA_le (w : Word) : fieldA w ≤ 255 := Nat.le_of_lt_succ (Nat.mod_lt _ (by decide))

theorem fieldB_le (w : Word) : fieldB w ≤ 255 := Nat.le_of_lt_succ (Nat.mod_lt _ (by decide))

/-- A host word that decodes is the encoding of its command (R147, R151). -/
theorem eq_encode_of_decodeHost {w : Word} {i : Instr} (h : decodeHost w = .ok i) : w = encode i := by
  have hw := toNat_eq_hostFields w
  apply BitVec.eq_of_toNat_eq
  unfold decodeHost at h
  repeat' split at h
  all_goals cases h
  · rw [encode_aesDecrypt_toNat _ _ (fieldA_le w) (fieldB_le w)]; omega
  all_goals simp only [encode, BitVec.toNat_ofNat]; omega

end Sys2Proof

namespace Sys2Proof.Machine

/-! Who writes KEY, NET_OUT and RESULT -/

/-- KEY_LOAD alone writes KEY_VALID and KEY, LINK_TICK alone writes NET_OUT (R44, R76, R78). -/
theorem exec_frame (i : Instr) (s t : State) (h : exec i s = .next t) :
    (i ≠ .keyLoad → t.keyValid = s.keyValid ∧ t.key = s.key) ∧ (i ≠ .linkTick → t.netOut = s.netOut) := by
  cases i with
  | nop | forceReconnect | radioPost => cases h; simp
  | decode => cases h; rw [decodeStage_frame]; simp
  | keyLoad => obtain ⟨-, rfl⟩ | ⟨-, rfl⟩ := execKeyLoad_cases s t h <;> simp
  | aesDecrypt off len =>
    obtain ⟨-, rfl⟩ | ⟨-, -, -, rfl⟩ := execAesDecrypt_cases off len s t h
    · simp
    · rw [cbcCore_frame]; simp
  | mbxTake => obtain ⟨-, rfl⟩ | ⟨-, rfl⟩ := execMbxTake_cases s t h <;> simp
  | linkTick =>
    obtain ⟨-, n, rfl⟩ | ⟨-, -, rfl⟩ | ⟨-, -, rfl⟩ := execLinkTick_cases s t h <;> simp [attemptLink]
  | processFrame =>
    obtain ⟨-, rfl⟩ | ⟨-, -, rfl⟩ | ⟨-, -, r, rfl, rfl⟩ := execProcessFrame_cases s t h
    · simp
    · simp
    · rw [runStages_frame]; simp
  | linkEvent up => rw [(execLinkEvent_frame up s t h).1]; simp

theorem exec_key {i : Instr} {s t : State} (h : exec i s = .next t) (hi : i ≠ .keyLoad) :
    t.keyValid = s.keyValid ∧ t.key = s.key :=
  (exec_frame i s t h).1 hi

theorem exec_netOut {i : Instr} {s t : State} (h : exec i s = .next t) (hi : i ≠ .linkTick) : t.netOut = s.netOut :=
  (exec_frame i s t h).2 hi

@[simp] theorem writeReg_keyValid (r : Reg) (v : Word) (s : State) : (writeReg r v s).keyValid = s.keyValid := by
  cases r <;> simp [writeReg]

@[simp] theorem writeReg_key (r : Reg) (v : Word) (s : State) : (writeReg r v s).key = s.key := by
  cases r <;> simp [writeReg]

@[simp] theorem writeReg_netOut (r : Reg) (v : Word) (s : State) : (writeReg r v s).netOut = s.netOut := by
  cases r <;> simp [writeReg]

@[simp] theorem writeReg_result (r : Reg) (v : Word) (s : State) : (writeReg r v s).result = s.result := by
  cases r <;> simp [writeReg]

/-- Whatever the environment, `finish`, every register write and every command but `c` leave, a step leaves too, or it
is the host's `c`. -/
theorem step_keeps_or_issues {α : Type} (f : State → α) (c : Instr) (hc : c.port = .host)
    (henv : ∀ (s : State) (e : Env), f { s with env := e } = f s)
    (hfinish : ∀ s : State, f (s.finish .illegalCmd) = f s)
    (hwrite : ∀ r v s, f (writeReg r v s) = f s)
    (hexec : ∀ i s t, exec i s = .next t → i ≠ c → f t = f s)
    {s t : State} (h : step s = .next t) :
    f t = f s ∨ (s.IssuesHostWord (encode c) ∧ exec c { s with env := t.env } = .next t) := by
  rw [← henv s t.env]
  obtain e | ⟨r, v, e⟩ | ⟨w, hw, ⟨i, hi, hrun⟩ | e⟩ | ⟨n, hrun⟩ | ⟨up, hrun⟩ := step_block_cases s t h
  · exact .inl (congrArg f e)
  · exact .inl ((congrArg f e).trans (hwrite r v _))
  · by_cases hic : i = c
    · subst hic
      rw [eq_encode_of_decodeHost hi] at hw
      exact .inr ⟨hw, hrun⟩
    · exact .inl (hexec i _ t hrun hic)
  · exact .inl ((congrArg f e).trans (hfinish _))
  · exact .inl (hexec _ _ t hrun fun hic => by simp [← hic, Instr.port] at hc)
  · exact .inl (hexec _ _ t hrun fun hic => by simp [← hic, Instr.port] at hc)

/-- A step keeps KEY_VALID and KEY, or it is the host's KEY_LOAD. -/
theorem step_key_cases (s t : State) (h : step s = .next t) :
    (t.keyValid = s.keyValid ∧ t.key = s.key) ∨
      (s.IssuesHostWord 0x01#32 ∧ exec .keyLoad { s with env := t.env } = .next t) := by
  have := step_keeps_or_issues (fun s => (s.keyValid, s.key)) .keyLoad rfl (fun _ _ => rfl) (fun _ => rfl)
    (fun r v s => Prod.ext (writeReg_keyValid r v s) (writeReg_key r v s))
    (fun i s t hrun hi => Prod.ext (exec_key hrun hi).1 (exec_key hrun hi).2) h
  exact this.imp_left Prod.mk.inj

/-- A step keeps NET_OUT, or it is the host's LINK_TICK. -/
theorem step_netOut_cases (s t : State) (h : step s = .next t) :
    t.netOut = s.netOut ∨ (s.IssuesHostWord 0x05#32 ∧ exec .linkTick { s with env := t.env } = .next t) :=
  step_keeps_or_issues State.netOut .linkTick rfl (fun _ _ => rfl) (fun _ => rfl)
    writeReg_netOut (fun _ _ _ => exec_netOut) h

/-- Settles O21: the one step that does not keep KEY_VALID and KEY is the host's KEY_LOAD, which is KEY_LOCKED once
KEY_VALID is 1 (R221). -/
theorem onlyTheFirstKeyLoadSetsTheKey : Obligations.OnlyTheFirstKeyLoadSetsTheKey := by
  intro s t hstep
  obtain ⟨hv, hk⟩ | ⟨hw, hexec⟩ := step_key_cases s t hstep
  · exact ⟨fun h => ⟨hv.trans h, hk⟩, fun h => .inl ⟨hv.trans h, hk⟩⟩
  obtain ⟨hs, e⟩ | ⟨hs, e⟩ := execKeyLoad_cases _ t hexec <;> rw [e]
  · exact ⟨fun _ => ⟨hs, rfl⟩, fun h => absurd (h.symm.trans hs) (by decide)⟩
  · exact ⟨fun h => absurd (h.symm.trans hs) (by decide), fun _ => .inr ⟨hw, rfl, rfl, rfl⟩⟩

/-- Settles O37: the one step that does not keep NET_OUT is the host's LINK_TICK, in the one of its three outcomes that
makes an attempt. -/
theorem attemptsComeOnlyFromDueTicks : Obligations.AttemptsComeOnlyFromDueTicks := by
  intro s t hstep
  obtain hn | ⟨hw, hexec⟩ := step_netOut_cases s t hstep
  · exact .inl hn
  obtain ⟨-, n, e⟩ | ⟨-, -, e⟩ | ⟨hlink, hdue, e⟩ := execLinkTick_cases _ t hexec
  · rw [e]; exact .inl rfl
  · rw [e]; exact .inl rfl
  · refine .inr ⟨hw, hlink, hdue, ?_⟩
    rw [e]; exact ⟨rfl, rfl, rfl⟩

/-- The radio's and the network's commands never finish (R16, R43). -/
theorem exec_radioPost_result {n : Nat} {s t : State} (h : exec (.radioPost n) s = .next t) : t.result = s.result := by
  cases h; rfl

theorem exec_linkEvent_result {up : Bool} {s t : State} (h : exec (.linkEvent up) s = .next t) :
    t.result = s.result := by
  rw [(execLinkEvent_frame up s t h).1]

/-- Settles O49: of the things a step can do, a CMD word of the host alone writes RESULT. -/
theorem resultIsWrittenByHostCommandsOnly : Obligations.ResultIsWrittenByHostCommandsOnly := by
  refine ⟨fun s t hstep hne => ?_, fun s => ?_⟩
  · obtain e | ⟨r, v, e⟩ | ⟨w, hw, -⟩ | ⟨n, hexec⟩ | ⟨up, hexec⟩ := step_block_cases s t hstep
    · exact absurd (by rw [e]) hne
    · exact absurd (by rw [e, writeReg_result]) hne
    · exact ⟨w, hw⟩
    · exact absurd (exec_radioPost_result hexec) hne
    · exact absurd (exec_linkEvent_result hexec) hne
  · rw [(statusFieldsStandInTheirPlaces s).1]
    exact s.result.code_le

/-! What the key and the staged bytes reach (10_state R76, R77) -/

/-- The state with another key and other staged bytes. -/
def State.withKeys (k q : Block) (s : State) : State := { s with key := k, kst := q }

@[simp] theorem withKeys_env (k q : Block) (s : State) : (s.withKeys k q).env = s.env := rfl

@[simp] theorem withKeys_cfg (k q : Block) (s : State) : (s.withKeys k q).cfg = s.cfg := rfl

/-- Every read is blind to the key and the staged bytes: KEY0 to KEY3 read 0 (R53). -/
theorem readReg_withKeys (r : Reg) (k q : Block) (s : State) : readReg r (s.withKeys k q) = readReg r s := by
  cases r <;> rfl

/-- A register write does the same to the rest of the block; a write to KEYk goes to the staged bytes. -/
theorem writeReg_withKeys (r : Reg) (v : Word) (k q : Block) (s : State) :
    ∃ q', writeReg r v (s.withKeys k q) = (writeReg r v s).withKeys k q' := by
  cases r <;> exact ⟨_, rfl⟩

/-- Without a run of the CBC core KEY_VALID alone decides what it answers. -/
theorem cbcCore_withKeys {iv : Block} {ct : List Byte} {s : State} (h : (cbcCore iv ct s).2.decCount = s.decCount)
    (k q : Block) : cbcCore iv ct (s.withKeys k q) = ((cbcCore iv ct s).1, (cbcCore iv ct s).2.withKeys k q) := by
  obtain ⟨hk, e⟩ | ⟨-, -, e⟩ | ⟨P, -, -, e⟩ := cbcCore_cases iv ct s
  · have hk' : (s.withKeys k q).keyValid = false := hk
    rw [e, cbcCore, hk']
    simp
  · rw [e] at h; simp at h
  · rw [e] at h; simp at h

theorem decodeStage_withKeys (k q : Block) (s : State) :
    decodeStage (s.withKeys k q) = ((decodeStage s).1, (decodeStage s).2.withKeys k q) := by
  obtain ⟨h1, e⟩ | ⟨h1, h2, e⟩ | ⟨h1, h2, e⟩ := decodeStage_cases s <;> rw [e]
  · exact if_pos h1
  · exact (if_neg (not_not.2 h1)).trans (if_pos h2)
  · exact (if_neg (not_not.2 h1)).trans (if_neg (not_not.2 h2))

theorem runStages_withKeys {iv : Block} {ct : List Byte} {s : State}
    (h : (runStages iv ct s).2.decCount = s.decCount) (k q : Block) :
    runStages iv ct (s.withKeys k q) = ((runStages iv ct s).1, (runStages iv ct s).2.withKeys k q) := by
  rw [runStages_frame] at h
  simp only [runStages, cbcCore_withKeys h, decodeStage_withKeys]
  split
  · split <;> rfl
  · rfl

theorem finish_withKeys {k q : Block} {r r' : ResultCode × State} (h : r' = (r.1, r.2.withKeys k q)) :
    r'.2.finish r'.1 = (r.2.finish r.1).withKeys k q := by
  rw [h]; rfl

/-- A command in which the CBC core does not run answers the same but for the key and the staged bytes. -/
theorem exec_withKeys {i : Instr} {s t : State} (h : exec i s = .next t) (hcount : t.decCount = s.decCount)
    (k q : Block) : ∃ k' q', exec i (s.withKeys k q) = .next (t.withKeys k' q') := by
  cases i with
  | nop | forceReconnect | radioPost => cases h; exact ⟨k, q, rfl⟩
  | keyLoad =>
    obtain ⟨hk, rfl⟩ | ⟨hk, rfl⟩ := execKeyLoad_cases s t h
    · exact ⟨k, _, if_pos hk⟩
    · exact ⟨q, _, if_neg (by simpa [State.withKeys] using hk)⟩
  | aesDecrypt off len =>
    simp only [exec, execAesDecrypt] at h
    split at h
    · next hlen => cases h; exact ⟨k, q, if_pos hlen⟩
    · next hlen =>
      cases h
      exact ⟨k, q, (if_neg hlen).trans (congrArg _ (finish_withKeys (cbcCore_withKeys hcount k q)))⟩
  | decode => cases h; exact ⟨k, q, congrArg _ (finish_withKeys (decodeStage_withKeys k q s))⟩
  | mbxTake =>
    obtain ⟨hm, rfl⟩ | ⟨hm, rfl⟩ := execMbxTake_cases s t h
    · exact ⟨k, q, if_pos hm⟩
    · exact ⟨k, q, if_neg (by simpa [State.withKeys] using hm)⟩
  | linkTick =>
    simp only [exec, execLinkTick] at h
    split at h
    · next hl => cases h; exact ⟨k, q, if_pos hl⟩
    · next hl =>
      split at h
      · next hd => cases h; exact ⟨k, q, (if_neg hl).trans (if_pos hd)⟩
      · next hd => cases h; exact ⟨k, q, (if_neg hl).trans (if_neg hd)⟩
  | processFrame =>
    simp only [exec, execProcessFrame] at h
    split at h
    · next hshort => cases h; exact ⟨k, q, if_pos hshort⟩
    · next hshort =>
      split at h
      · next halign => cases h; exact ⟨k, q, (if_neg hshort).trans (if_pos halign)⟩
      · next halign =>
        cases h
        exact ⟨k, q, (if_neg hshort).trans ((if_neg halign).trans
          (congrArg _ (finish_withKeys (runStages_withKeys hcount k q))))⟩
  | linkEvent up =>
    simp only [exec, execLinkEvent] at h
    split at h
    · next hup =>
      split at h
      · next hl => cases h; exact ⟨k, q, (if_pos hup).trans (if_pos hl)⟩
      · next hl => cases h; exact ⟨k, q, (if_pos hup).trans (if_neg hl)⟩
    · next hup =>
      split at h
      · next hl => cases h; exact ⟨k, q, (if_neg hup).trans (if_pos hl)⟩
      · next hl => cases h; exact ⟨k, q, (if_neg hup).trans (if_neg hl)⟩

theorem issueHost_withKeys {w : Word} {s t : State} (h : issueHost w s = .next t) (hcount : t.decCount = s.decCount)
    (k q : Block) : ∃ k' q', issueHost w (s.withKeys k q) = .next (t.withKeys k' q') := by
  cases hd : decode .host w <;> simp only [issueHost, hd] at h ⊢
  · cases h; exact ⟨k, q, rfl⟩
  · exact exec_withKeys h hcount k q

theorem issueRadio_withKeys {w : Word} {s t : State} (h : issueRadio w s = .next t) (hcount : t.decCount = s.decCount)
    (k q : Block) : ∃ k' q', issueRadio w (s.withKeys k q) = .next (t.withKeys k' q') := by
  cases hd : decode .radio w <;> simp only [issueRadio, hd] at h ⊢
  · cases h; exact ⟨k, q, rfl⟩
  · exact exec_withKeys h hcount k q

theorem issueNetwork_withKeys {w : Word} {s t : State} (h : issueNetwork w s = .next t)
    (hcount : t.decCount = s.decCount) (k q : Block) :
    ∃ k' q', issueNetwork w (s.withKeys k q) = .next (t.withKeys k' q') := by
  cases hd : decode .network w <;> simp only [issueNetwork, hd] at h ⊢
  · cases h; exact ⟨k, q, rfl⟩
  · exact exec_withKeys h hcount k q

theorem hostAccess_withKeys {a : BusAccess} {s t : State} (h : hostAccess a s = .next t)
    (hcount : t.decCount = s.decCount) (k q : Block) :
    ∃ k' q', hostAccess a (s.withKeys k q) = .next (t.withKeys k' q') := by
  obtain ⟨r, rfl, rfl⟩ | ⟨v, rfl, hv⟩ | ⟨r, v, hr, rfl, rfl⟩ := hostAccess_cases a s t h
  · refine ⟨k, q, (hostAccess_read_reg r (s.withKeys k q)).trans ?_⟩
    rw [readReg_withKeys]; rfl
  · rw [← withKeys_cfg k q s, hostAccess_write_cmd]
    exact issueHost_withKeys hv hcount k q
  · obtain ⟨q', e⟩ := writeReg_withKeys r v k q s
    exact ⟨k, q', (hostAccess_write_reg hr v (s.withKeys k q)).trans (congrArg _ e)⟩

theorem servePort_withKeys {p : Port} {s t : State} (h : servePort p s = .next t)
    (hcount : t.decCount = s.decCount) (k q : Block) :
    ∃ k' q', servePort p (s.withKeys k q) = .next (t.withKeys k' q') := by
  cases p with
  | host =>
    cases ha : s.env.host <;> simp only [servePort, withKeys_env, ha] at h ⊢
    · cases h; exact ⟨k, q, rfl⟩
    · exact hostAccess_withKeys h hcount k q
  | radio =>
    cases ha : s.env.radio <;> simp only [servePort, withKeys_env, ha] at h ⊢
    · cases h; exact ⟨k, q, rfl⟩
    · exact issueRadio_withKeys h hcount k q
  | network =>
    cases ha : s.env.network <;> simp only [servePort, withKeys_env, ha] at h ⊢
    · cases h; exact ⟨k, q, rfl⟩
    · exact issueNetwork_withKeys h hcount k q

theorem step_withKeys {s t : State} (h : step s = .next t) (hcount : t.decCount = s.decCount) (k q : Block) :
    ∃ k' q', step (s.withKeys k q) = .next (t.withKeys k' q') := by
  have hadm := (step_cases s t h).1
  cases hs : s.env.schedule with
  | nil =>
    cases (step_eq_self hadm hs).symm.trans h
    exact ⟨k, q, step_eq_self hadm hs⟩
  | cons turn rest =>
    rw [step_eq_servePort hadm hs] at h
    rw [step_eq_servePort (s := s.withKeys k q) hadm hs]
    exact servePort_withKeys h hcount k q

/-- Settles O22: of everything a step can do, the CBC core alone reads the key, and KEY_LOAD alone the staged bytes, which
it moves to the key. -/
theorem keyIsNotReadOut : Obligations.KeyIsNotReadOut := by
  intro s t k q hstep hcount
  obtain ⟨k', q', e⟩ := step_withKeys hstep hcount k q
  exact ⟨_, e, rfl⟩

end Sys2Proof.Machine

/-! The mapped offsets (10_state R39; 20_memory R101, R106) -/

namespace Sys2Proof.Machine

/-- The offsets R39 maps: the words below 0x064 and those of the two buffers. -/
theorem exists_offset_iff (off : Nat) :
    (∃ r : Reg, r.offset = off) ↔ off % 4 = 0 ∧ (off < 0x064 ∨ (0x100 ≤ off ∧ off < 0x200)) := by
  constructor
  · rintro ⟨r, rfl⟩
    refine ⟨(offset_lt r).2, ?_⟩
    cases r with
    | key k | iv k | frameBuf k | ptBuf k => simp only [Reg.offset, frameBase, ptBase]; omega
    | _ => decide
  · have low : ∀ i : Fin 25, ∃ r ∈ allRegs, r.offset = 4 * i.val := by decide
    rintro ⟨haligned, hlow | ⟨hlo, hhi⟩⟩
    · obtain ⟨r, -, hr⟩ := low ⟨off / 4, by omega⟩
      exact ⟨r, by rw [hr]; dsimp only; omega⟩
    · by_cases hframe : off < 0x180
      · exact ⟨.frameBuf ⟨(off - 0x100) / 4, by omega⟩, by simp only [Reg.offset, frameBase]; omega⟩
      · exact ⟨.ptBuf ⟨(off - 0x180) / 4, by omega⟩, by simp only [Reg.offset, ptBase]; omega⟩

theorem busTarget_eq_ok_iff (cfg : Config) (off width : Nat) (r : Reg) :
    busTarget cfg (cfg.hostBase + off) width = .ok r ↔ width = 4 ∧ r.offset = off := by
  constructor
  · intro h
    obtain ⟨r', hr', hwidth, haddr⟩ | e | e := busTarget_cases cfg (cfg.hostBase + off) width
    · cases h.symm.trans hr'
      exact ⟨hwidth, by omega⟩
    · cases h.symm.trans e
    · cases h.symm.trans e
  · rintro ⟨rfl, rfl⟩
    exact busTarget_offset cfg r

/-- Inside the window an access that reaches no register is a bus error with read data 0 (R105, R106; log 6). -/
theorem busTarget_eq_busError {cfg : Config} {off width : Nat} (hoff : off < windowSize)
    (hnone : ¬ ∃ r, busTarget cfg (cfg.hostBase + off) width = .ok r) :
    busTarget cfg (cfg.hostBase + off) width = .error (.busError (cfg.hostBase + off) width 0) := by
  have inside : ¬ (cfg.hostBase + off < cfg.hostBase ∨ cfg.hostBase + windowSize ≤ cfg.hostBase + off) := by omega
  revert hnone
  rw [busTarget, if_neg inside]
  split
  · exact fun _ => rfl
  · split
    · next r _ => exact fun hnone => absurd ⟨r, rfl⟩ hnone
    · exact fun _ => rfl

/-- Settles O9: an access reaches a register exactly when it is 4 bytes wide and at a mapped offset, and every other
access inside the window gets `busTarget`'s bus error. -/
theorem busErrorsAreExactlyTheIllegalAccesses : Obligations.BusErrorsAreExactlyTheIllegalAccesses := by
  intro s off width hoff
  have legal_iff : (∃ r, busTarget s.cfg (s.cfg.hostBase + off) width = .ok r) ↔
      width = 4 ∧ off % 4 = 0 ∧ (off < 0x064 ∨ (0x100 ≤ off ∧ off < 0x200)) := by
    simp only [busTarget_eq_ok_iff, exists_and_left, exists_offset_iff]
  refine ⟨legal_iff, fun hillegal => ?_⟩
  have herror := busTarget_eq_busError hoff (mt legal_iff.1 hillegal)
  exact ⟨by rw [hostAccess, herror], fun v => by rw [hostAccess, herror]⟩

/-! Words of the IV and of the buffers (10_state R54; 20_memory R102, R103, R107) -/

theorem lane_blockWord_getElem (b : Block) (k j : Fin 4) : lane (blockWord b k) j = b[4 * k.val + j.val] := by
  rw [lane_blockWord b k j j.isLt, List.getD_eq_getElem _ _ (by rw [Vector.length_toList]; omega),
    Vector.getElem_toList]

theorem lane_wordOfLanes_readBytes (m : Memory) (base j : Nat) (h : j < 4) :
    lane (wordOfLanes (m.readBytes base 4)) j = m.read (base + j) := by
  rw [lane_wordOfLanes _ _ h, readBytes_getD _ _ _ _ h]

theorem zext32_toNat {n : Nat} (h : n ≤ 32) (v : BitVec n) : (zext32 v).toNat = v.toNat :=
  BitVec.toNat_setWidth_of_le h

/-- Settles O10: a read answers with `readReg`, whose arms are the state elements; the word of an IV or buffer register is
made of its four bytes. -/
theorem readsReturnTheRegister : Obligations.ReadsReturnTheRegister := by
  intro s
  have iv : ∀ k j : Fin 4, lane (readReg (.iv k) s) j = s.ivr[4 * k.val + j.val] := lane_blockWord_getElem s.ivr
  have frameBuf : ∀ (k : Fin 32) (j : Fin 4),
      lane (readReg (.frameBuf k) s) j = s.mem.read (0x100 + (4 * k.val + j.val)) := fun k j =>
    (lane_wordOfLanes_readBytes s.mem (frameBase + 4 * k.val) j j.isLt).trans (by rw [Nat.add_assoc])
  have ptBuf : ∀ (k : Fin 32) (j : Fin 4),
      lane (readReg (.ptBuf k) s) j = s.mem.read (0x180 + (4 * k.val + j.val)) := fun k j =>
    (lane_wordOfLanes_readBytes s.mem (ptBase + 4 * k.val) j j.isLt).trans (by rw [Nat.add_assoc])
  exact ⟨fun r => hostAccess_read_reg r s, rfl, rfl, fun _ => rfl, rfl, zext32_toNat (by decide) _, rfl, rfl,
    zext32_toNat (by decide) _, zext32_toNat (by decide) _, zext32_toNat (by decide) _, rfl, rfl,
    zext32_toNat (by decide) _, rfl, rfl, rfl, rfl, iv, frameBuf, ptBuf⟩

/-! One register written (20_memory R103, R104) -/

/-- The bytes after a store of a word: its four lanes at their addresses, every other byte as before. -/
theorem read_writeBytes_lanes (m : Memory) (base : Nat) (v : Word) (a : Nat) :
    (m.writeBytes base (lanes v)).read a = if base ≤ a ∧ a < base + 4 then lane v (a - base) else m.read a := by
  rw [read_writeBytes, lanes_length]
  split
  · next hin => rw [lanes_getD v _ (by omega)]
  · rfl

/-- The registers R104 makes read-only ignore a write. -/
theorem writeReg_readOnly {r : Reg} (hr : r ∈ [Reg.id, .status, .lastNow, .rdIrr, .rdBatt, .rdTemp, .rdTs, .rdCsum,
    .linkNext, .linkBackoff, .linkJitter, .decCount]) (v : Word) (s : State) : writeReg r v s = s := by
  cases r with
  | key | iv | frameLen | frameRssi | frameSnr | ptLen | frameBuf | ptBuf => simp at hr
  | _ => rfl

/-- Settles O12: a write to CMD issues its word, a write to any other register is `writeReg`, arm by arm. -/
theorem writesUpdateExactlyTheirRegister : Obligations.WritesUpdateExactlyTheirRegister := by
  intro s v wr
  have wr_eq {r : Reg} (hr : r ≠ .cmd) : wr r = .next (writeReg r v s) := hostAccess_write_reg hr v s
  have block (b : Block) (k : Fin 4) (i : Fin 16) : (setBlockWord b k v)[i] =
      if i.val / 4 = k.val then lane v (i.val % 4) else b[i] := setBlockWord_getElem b k v i i.isLt
  refine ⟨hostAccess_write_cmd v s, fun k => ⟨_, wr_eq (by simp), rfl, block s.kst k⟩,
    fun k => ⟨_, wr_eq (by simp), rfl, block s.ivr k⟩, ⟨_, wr_eq (by simp), rfl, clampLen_toNat v⟩,
    ⟨_, wr_eq (by simp), rfl, clampLen_toNat v⟩, wr_eq (by simp), wr_eq (by simp),
    fun k => ⟨_, wr_eq (by simp), rfl, read_writeBytes_lanes s.mem _ v⟩,
    fun k => ⟨_, wr_eq (by simp), rfl, read_writeBytes_lanes s.mem _ v⟩, fun r hr => ?_⟩
  have hcmd : r ≠ .cmd := by rintro rfl; simp at hr
  rw [wr_eq hcmd, writeReg_readOnly hr]

/-! A read after a write (20_memory R102, R103, R107) -/

theorem blockWord_setBlockWord_same (b : Block) (k : Fin 4) (v : Word) : blockWord (setBlockWord b k v) k = v :=
  word_ext _ _ fun j hj => by
    have hword : (4 * k.val + j) / 4 = k.val := by omega
    have hlane : (4 * k.val + j) % 4 = j := by omega
    rw [lane_blockWord_getElem _ k ⟨j, hj⟩, setBlockWord_getElem, if_pos hword, hlane]

theorem blockWord_setBlockWord_ne (b : Block) {k k' : Fin 4} (h : k' ≠ k) (v : Word) :
    blockWord (setBlockWord b k v) k' = blockWord b k' :=
  word_ext _ _ fun j hj => by
    rw [lane_blockWord_getElem _ k' ⟨j, hj⟩, lane_blockWord_getElem _ k' ⟨j, hj⟩, setBlockWord_getElem,
      if_neg (by omega)]

theorem wordOfLanes_readBytes_writeBytes_same (m : Memory) (base : Nat) (v : Word) :
    wordOfLanes ((m.writeBytes base (lanes v)).readBytes base 4) = v :=
  word_ext _ _ fun j hj => by
    rw [lane_wordOfLanes_readBytes _ _ _ hj, read_writeBytes_lanes, if_pos (by omega), Nat.add_sub_cancel_left]

theorem wordOfLanes_readBytes_writeBytes_of_disjoint (m : Memory) {base base' : Nat}
    (h : base' + 4 ≤ base ∨ base + 4 ≤ base') (v : Word) :
    wordOfLanes ((m.writeBytes base (lanes v)).readBytes base' 4) = wordOfLanes (m.readBytes base' 4) :=
  word_ext _ _ fun j hj => by
    rw [lane_wordOfLanes_readBytes _ _ _ hj, lane_wordOfLanes_readBytes _ _ _ hj, read_writeBytes_lanes,
      if_neg (by omega)]

/-- Different registers have no byte of the window in common (R39). -/
theorem offset_disjoint {r r' : Reg} (h : r' ≠ r) : r'.offset + 4 ≤ r.offset ∨ r.offset + 4 ≤ r'.offset := by
  have hne : r'.offset ≠ r.offset := fun e => by
    have := regAt_offset r'
    rw [e, regAt_offset r] at this
    exact h (Option.some.inj this).symm
  have := (offset_lt r).2
  have := (offset_lt r').2
  omega

/-- A word stored into the buffers changes no register whose four bytes are elsewhere in the window. -/
theorem readReg_storeWindow_of_disjoint {r : Reg} {off : Nat} (h : r.offset + 4 ≤ off ∨ off + 4 ≤ r.offset) (v : Word)
    (s : State) : readReg r (s.storeWindow off (lanes v)) = readReg r s := by
  cases r with
  | frameBuf k | ptBuf k => exact wordOfLanes_readBytes_writeBytes_of_disjoint s.mem h v
  | _ => simp [readReg, statusWord]

/-- A register write leaves what every other register reads. -/
theorem readReg_writeReg_ne {r r' : Reg} (h : r' ≠ r) (v : Word) (s : State) :
    readReg r' (writeReg r v s) = readReg r' s := by
  cases r with
  | frameBuf k | ptBuf k => exact readReg_storeWindow_of_disjoint (offset_disjoint h) v s
  | iv k =>
    cases r' with
    | iv k' => exact blockWord_setBlockWord_ne s.ivr (fun e => h (congrArg Reg.iv e)) v
    | _ => simp [readReg, writeReg, statusWord, State.frameBytes, State.ptBytes]
  | key | frameLen | frameRssi | frameSnr | ptLen =>
    cases r' <;> simp [readReg, writeReg, statusWord, State.frameBytes, State.ptBytes] at h ⊢
  | _ => rfl

/-- Settles O13: a word's four lanes are stored and read in the same places, and different registers share no byte. -/
theorem readBackAfterWrite : Obligations.ReadBackAfterWrite := by
  intro s v
  exact ⟨fun k => blockWord_setBlockWord_same s.ivr k v,
    fun k => wordOfLanes_readBytes_writeBytes_same s.mem (frameBase + 4 * k.val) v,
    fun k => wordOfLanes_readBytes_writeBytes_same s.mem (ptBase + 4 * k.val) v, rfl, rfl,
    (zext32_toNat (by decide) _).trans (clampLen_toNat v), (zext32_toNat (by decide) _).trans (clampLen_toNat v),
    fun r r' h => readReg_writeReg_ne h v s⟩

/-! The same write twice (20_memory R109) -/

theorem setBlockWord_setBlockWord_same (b : Block) (k : Fin 4) (v : Word) :
    setBlockWord (setBlockWord b k v) k v = setBlockWord b k v := by
  apply Vector.ext
  intro i hi
  simp only [setBlockWord_getElem]
  split <;> rfl

theorem filter_lt_writeBytes (m : Memory) (base : Nat) (bs : List Byte) :
    (m.writeBytes base bs).filter (fun c => decide (c.1 < base)) = m.filter fun c => decide (c.1 < base) := by
  have cells : (cellsOf base bs).filter (fun c => decide (c.1 < base)) = [] :=
    List.filter_eq_nil_iff.2 fun c hc => by have := cellsOf_bounds bs base c hc; simp only [decide_eq_true_eq]; omega
  have above : (m.filter fun c => decide (base + bs.length ≤ c.1)).filter (fun c => decide (c.1 < base)) = [] :=
    List.filter_eq_nil_iff.2 fun c hc => by
      simp only [List.mem_filter, decide_eq_true_eq] at hc ⊢; omega
  rw [Memory.writeBytes, List.filter_append, List.filter_append, cells, above, List.filter_filter]
  simp

theorem filter_ge_writeBytes (m : Memory) (base : Nat) (bs : List Byte) :
    (m.writeBytes base bs).filter (fun c => decide (base + bs.length ≤ c.1)) =
      m.filter fun c => decide (base + bs.length ≤ c.1) := by
  have cells : (cellsOf base bs).filter (fun c => decide (base + bs.length ≤ c.1)) = [] :=
    List.filter_eq_nil_iff.2 fun c hc => by have := cellsOf_bounds bs base c hc; simp only [decide_eq_true_eq]; omega
  have below : (m.filter fun c => decide (c.1 < base)).filter (fun c => decide (base + bs.length ≤ c.1)) = [] :=
    List.filter_eq_nil_iff.2 fun c hc => by
      simp only [List.mem_filter, decide_eq_true_eq] at hc ⊢; omega
  rw [Memory.writeBytes, List.filter_append, List.filter_append, cells, below, List.filter_filter]
  simp

/-- A store replaces the cells of its range whatever they are, so the same store again changes nothing, in memories that
are not in canonical form too. -/
theorem writeBytes_writeBytes_same (m : Memory) (base : Nat) (bs : List Byte) :
    (m.writeBytes base bs).writeBytes base bs = m.writeBytes base bs := by
  rw [Memory.writeBytes, filter_lt_writeBytes, filter_ge_writeBytes, ← Memory.writeBytes]

/-- Settles O14: a stored block word and a stored buffer word replace the same bytes again; every other register's value
does not depend on the old one. -/
theorem registerWritesAreIdempotent : Obligations.RegisterWritesAreIdempotent := by
  intro r v s
  cases r with
  | key k | iv k => simp only [writeReg, setBlockWord_setBlockWord_same]
  | frameBuf k | ptBuf k => simp only [writeReg, State.storeWindow, writeBytes_writeBytes_same]
  | _ => rfl

/-! The arbiter and the ports' order (20_memory R110, R111) -/

theorem issueHost_env {w : Word} {s t : State} (h : issueHost w s = .next t) : t.env = s.env := by
  obtain ⟨i, -, hexec⟩ | ⟨e, -, rfl⟩ := issueHost_cases w s t h
  · exact (exec_env i s t hexec).1
  · rfl

theorem issueRadio_env {w : Word} {s t : State} (h : issueRadio w s = .next t) : t.env = s.env := by
  cases hd : decode .radio w <;> simp only [issueRadio, hd] at h
  · cases h; rfl
  · exact (exec_env _ s t h).1

theorem issueNetwork_env {w : Word} {s t : State} (h : issueNetwork w s = .next t) : t.env = s.env := by
  cases hd : decode .network w <;> simp only [issueNetwork, hd] at h
  · cases h; rfl
  · exact (exec_env _ s t h).1

/-- A host transaction leaves the environment, but for the record of a read. -/
theorem hostAccess_env {a : BusAccess} {s t : State} (h : hostAccess a s = .next t) :
    t.env = s.env ∨ ∃ v, t.env = { s.env with hostReads := s.env.hostReads ++ [v] } := by
  obtain ⟨r, -, rfl⟩ | ⟨v, -, hissue⟩ | ⟨r, v, -, -, rfl⟩ := hostAccess_cases a s t h
  · exact .inr ⟨_, rfl⟩
  · exact .inl (issueHost_env hissue)
  · exact .inl (writeReg_env r v s).1

/-- Settles O15: the arbiter takes the turn and its item off their lists before the item is performed, and no item
touches them. -/
theorem arbiterKeepsEachPortsOrder : Obligations.ArbiterKeepsEachPortsOrder := by
  intro s t turn rest hs hstep
  obtain ⟨-, ⟨hnil, -⟩ | ⟨turn', rest', hs', served⟩⟩ := step_cases s t hstep
  · exact absurd (hs.symm.trans hnil) (by simp)
  cases hs.symm.trans hs'
  obtain ⟨hp, he, rfl⟩ | ⟨hp, he, rfl⟩ | ⟨hp, he, rfl⟩ | ⟨a, as, hp, he, h⟩ | ⟨q, qs, hp, he, h⟩ | ⟨w, ws, hp, he, h⟩ :=
    served
  · simp [hp, he]
  · simp [hp, he]
  · simp [hp, he]
  · obtain e | ⟨v, e⟩ := hostAccess_env h <;> simp [e, hp, he]
  · simp [issueRadio_env h, hp, he]
  · simp [issueNetwork_env h, hp, he]

end Sys2Proof.Machine

/-! The fields of a word (30_encoding R141, R143 to R145) -/

namespace Sys2Proof

/-- A field is the unsigned integer of its bits (R12, R145). -/
theorem bits_eq_extractLsb' (w : Word) (hi lo : Nat) : bits w hi lo = (w.extractLsb' lo (hi - lo + 1)).toNat :=
  (Machine.toNat_extractLsb'_eq w lo (hi - lo + 1)).symm

theorem fieldOP_eq (w : Word) : fieldOP w = (w.extractLsb' 0 8).toNat := bits_eq_extractLsb' w 7 0

theorem fieldA_eq (w : Word) : fieldA w = (w.extractLsb' 8 8).toNat := bits_eq_extractLsb' w 15 8

theorem fieldB_eq (w : Word) : fieldB w = (w.extractLsb' 16 8).toNat := bits_eq_extractLsb' w 23 16

theorem fieldN_eq (w : Word) : fieldN w = (w.extractLsb' 8 16).toNat := bits_eq_extractLsb' w 23 8

theorem fieldRSV_eq (w : Word) : fieldRSV w = (w.extractLsb' 24 8).toNat := bits_eq_extractLsb' w 31 24

theorem fieldNetRSV_eq (w : Word) : fieldNetRSV w = (w.extractLsb' 9 23).toNat := bits_eq_extractLsb' w 31 9

theorem fieldUP_eq (w : Word) : fieldUP w = w.getLsbD 8 := Nat.testBit_eq_decide_div_mod_eq.symm

theorem fieldN_le (w : Word) : fieldN w ≤ 65535 := Nat.le_of_lt_succ (Nat.mod_lt _ (by decide))

/-- The fields of format R make up the word (R143). -/
theorem toNat_eq_radioFields (w : Word) : w.toNat = fieldOP w + fieldN w * 2 ^ 8 + fieldRSV w * 2 ^ 24 := by
  have := w.isLt
  simp only [fieldOP, fieldN, fieldRSV, bits]
  omega

/-- The fields of format N make up the word (R144). -/
theorem toNat_eq_networkFields (w : Word) :
    w.toNat = fieldOP w + (fieldUP w).toNat * 2 ^ 8 + fieldNetRSV w * 2 ^ 9 := by
  have hup : (fieldUP w).toNat = w.toNat / 2 ^ 8 % 2 := by
    rw [fieldUP_eq, BitVec.getLsbD, Nat.toNat_testBit]
  have := w.isLt
  rw [hup]
  simp only [fieldOP, fieldNetRSV, bits]
  omega

/-- A word under the mask 0xFF0000FF is a one-byte match exactly when its OP is the match and its RSV is 0 (R150). -/
theorem and_opMask_eq_iff_fields (w : Word) {v : Nat} (hv : v < 256) :
    w &&& 0xFF0000FF#32 = BitVec.ofNat 32 v ↔ fieldOP w = v ∧ fieldRSV w = 0 := by
  have := w.isLt
  rw [and_opMask_eq w v hv]
  simp only [fieldOP, fieldRSV, bits]
  omega

/-! What each port's decoder answers (30_encoding R140, R147 to R149) -/

/-- The legal words of format H (R147). -/
def HostLegal (w : Word) : Prop :=
  fieldOP w ≤ 0x07 ∧ fieldRSV w = 0 ∧ (fieldOP w = 0x02 ∨ (fieldA w = 0 ∧ fieldB w = 0))

/-- The host's commands without operands (R142). -/
def plainHostCommands : List Instr :=
  [.nop, .keyLoad, .decode, .mbxTake, .linkTick, .forceReconnect, .processFrame]

/-- A host word is illegal and rejected, or an AES_DECRYPT, or a command without operands. -/
theorem decodeHost_cases (w : Word) :
    (¬ HostLegal w ∧ ∃ e, decodeHost w = .error e) ∨
    (fieldOP w = 0x02 ∧ fieldRSV w = 0 ∧ decodeHost w = .ok (.aesDecrypt (fieldA w) (fieldB w))) ∨
    (HostLegal w ∧ fieldOP w ≠ 0x02 ∧ ∃ i ∈ plainHostCommands, decodeHost w = .ok i) := by
  unfold decodeHost HostLegal
  split
  · exact .inl ⟨by omega, _, rfl⟩
  split
  · exact .inl ⟨by omega, _, rfl⟩
  split
  · exact .inr (.inl ⟨by assumption, by omega, rfl⟩)
  split
  · exact .inl ⟨by omega, _, rfl⟩
  refine .inr (.inr ⟨by omega, by assumption, ?_⟩)
  repeat' split
  all_goals exact ⟨_, by decide, rfl⟩

theorem decodeHost_eq_aesDecrypt_iff {w : Word} {off len : Nat} :
    decodeHost w = .ok (.aesDecrypt off len) ↔
      fieldOP w = 0x02 ∧ fieldRSV w = 0 ∧ fieldA w = off ∧ fieldB w = len := by
  obtain ⟨hlegal, e, hw⟩ | ⟨hop, hrsv, hw⟩ | ⟨-, hop, i, hi, hw⟩ := decodeHost_cases w <;> rw [hw]
  · exact ⟨nofun, fun ⟨hop, hrsv, _⟩ => absurd ⟨by omega, hrsv, .inl hop⟩ hlegal⟩
  · simp [hop, hrsv]
  · refine ⟨fun h => ?_, fun h => absurd h.1 hop⟩
    cases h
    simp [plainHostCommands] at hi

theorem exists_decodeHost_eq_ok_iff (w : Word) : (∃ i, decodeHost w = .ok i) ↔ HostLegal w := by
  obtain ⟨hlegal, e, hw⟩ | ⟨hop, hrsv, hw⟩ | ⟨hlegal, -, i, -, hw⟩ := decodeHost_cases w
  · simp [hw, hlegal]
  · exact ⟨fun _ => ⟨by omega, hrsv, .inl hop⟩, fun _ => ⟨_, hw⟩⟩
  · exact ⟨fun _ => hlegal, fun _ => ⟨i, hw⟩⟩

theorem wellFormed_aesDecrypt (off len : Nat) :
    (Instr.aesDecrypt off len).wellFormed = true ↔ off ≤ 255 ∧ len ≤ 255 := by
  simp only [Instr.wellFormed, Bool.and_eq_true, decide_eq_true_eq]

theorem wellFormed_radioPost (n : Nat) : (Instr.radioPost n).wellFormed = true ↔ n ≤ 65535 :=
  decide_eq_true_iff

/-- A host word decodes to a host command whose operands fit their fields. -/
theorem wellFormed_port_of_decodeHost {w : Word} {i : Instr} (h : decodeHost w = .ok i) :
    i.wellFormed = true ∧ i.port = .host := by
  have plain : ∀ i ∈ plainHostCommands, i.wellFormed = true ∧ i.port = .host := by decide
  obtain ⟨-, e, hw⟩ | ⟨-, -, hw⟩ | ⟨-, -, i', hi, hw⟩ := decodeHost_cases w <;> cases h.symm.trans hw
  · exact ⟨(wellFormed_aesDecrypt _ _).2 ⟨fieldA_le w, fieldB_le w⟩, rfl⟩
  · exact plain i hi

theorem decodeRadio_eq_ok_iff {w : Word} {i : Instr} :
    decodeRadio w = .ok i ↔ (fieldOP w = 0x10 ∧ fieldRSV w = 0) ∧ .radioPost (fieldN w) = i := by
  unfold decodeRadio
  split
  · next hop => simp [hop]
  next hop =>
    split
    · next hrsv => simp [hrsv]
    · next hrsv => simp [not_not.1 hop, not_not.1 hrsv]

theorem decodeNetwork_eq_ok_iff {w : Word} {i : Instr} :
    decodeNetwork w = .ok i ↔ (fieldOP w = 0x20 ∧ fieldNetRSV w = 0) ∧ .linkEvent (fieldUP w) = i := by
  unfold decodeNetwork
  split
  · next hop => simp [hop]
  next hop =>
    split
    · next hrsv => simp [hrsv]
    · next hrsv => simp [not_not.1 hop, not_not.1 hrsv]

/-! Decode and encode are inverse (30_encoding R151) -/

theorem encode_linkEvent_toNat (up : Bool) : (encode (.linkEvent up)).toNat = 0x20 + up.toNat * 2 ^ 8 := by
  cases up <;> rfl

/-- The encoding's fields are the command's operands, so decoding gives the command back. -/
theorem decode_encode (i : Instr) (h : i.wellFormed = true) : decode i.port (encode i) = .ok i := by
  cases i with
  | aesDecrypt off len =>
    obtain ⟨hoff, hlen⟩ := (wellFormed_aesDecrypt off len).1 h
    refine decodeHost_eq_aesDecrypt_iff.2 ?_
    simp only [fieldOP, fieldRSV, fieldA, fieldB, bits, encode_aesDecrypt_toNat off len hoff hlen]
    omega
  | radioPost n =>
    have hn := (wellFormed_radioPost n).1 h
    refine decodeRadio_eq_ok_iff.2 ?_
    simp only [fieldOP, fieldRSV, fieldN, bits, encode_radioPost_toNat n hn, Instr.radioPost.injEq]
    omega
  | linkEvent up => cases up <;> rfl
  | _ => rfl

/-- The word's fields determine it, so a word that decodes is the encoding of what it decodes to. -/
theorem decode_inversion {p : Port} {w : Word} {i : Instr} (h : decode p w = .ok i) :
    i.wellFormed = true ∧ i.port = p ∧ encode i = w := by
  cases p with
  | host =>
    obtain ⟨hwf, hport⟩ := wellFormed_port_of_decodeHost h
    exact ⟨hwf, hport, (eq_encode_of_decodeHost h).symm⟩
  | radio =>
    obtain ⟨⟨hop, hrsv⟩, rfl⟩ := decodeRadio_eq_ok_iff.1 h
    refine ⟨(wellFormed_radioPost _).2 (fieldN_le w), rfl, BitVec.eq_of_toNat_eq ?_⟩
    rw [encode_radioPost_toNat _ (fieldN_le w), toNat_eq_radioFields w, hop, hrsv, Nat.zero_mul, Nat.add_zero]
  | network =>
    obtain ⟨⟨hop, hrsv⟩, rfl⟩ := decodeNetwork_eq_ok_iff.1 h
    refine ⟨rfl, rfl, BitVec.eq_of_toNat_eq ?_⟩
    rw [encode_linkEvent_toNat, toNat_eq_networkFields w, hop, hrsv, Nat.zero_mul, Nat.add_zero]

theorem decode_eq_ok_iff {p : Port} {w : Word} {i : Instr} :
    decode p w = .ok i ↔ i.wellFormed = true ∧ i.port = p ∧ encode i = w := by
  refine ⟨decode_inversion, ?_⟩
  rintro ⟨hwf, rfl, rfl⟩
  exact decode_encode i hwf

/-- Settles O2: the encoding's fields are the command's operands. -/
theorem encodedCommandDecodesToItself : Obligations.EncodedCommandDecodesToItself :=
  decode_encode

/-- Settles O3: each port's decoder accepts only words whose fields are those of a command's encoding. -/
theorem decodedWordIsItsEncoding : Obligations.DecodedWordIsItsEncoding :=
  fun _ _ _ => decode_inversion

/-- Settles O1: each of the twelve words is the encoding of its command. -/
theorem tableWordsDecode : Obligations.TableWordsDecode :=
  ⟨decode_encode .nop rfl, decode_encode .keyLoad rfl, decode_encode (.aesDecrypt 16 16) rfl,
    decode_encode (.aesDecrypt 1 255) rfl, decode_encode .decode rfl, decode_encode .mbxTake rfl,
    decode_encode .linkTick rfl, decode_encode .forceReconnect rfl, decode_encode .processFrame rfl,
    decode_encode (.radioPost 32) rfl, decode_encode (.linkEvent true) rfl, decode_encode (.linkEvent false) rfl⟩

/-- Settles O4: the operands are the fields A, B, N and UP. -/
theorem operandFieldsAreUnsigned : Obligations.OperandFieldsAreUnsigned := by
  refine ⟨fun w off len h => ?_, fun w n h => ?_, fun w up h => ?_⟩
  · obtain ⟨-, -, rfl, rfl⟩ := decodeHost_eq_aesDecrypt_iff.1 h
    exact ⟨fieldA_eq w, fieldB_eq w⟩
  · cases (decodeRadio_eq_ok_iff.1 h).2
    exact fieldN_eq w
  · cases (decodeNetwork_eq_ok_iff.1 h).2
    exact fieldUP_eq w

/-! The rows of the opcode table (30_encoding R150) -/

/-- The mask 0xFFFFFEFF drops UP alone, so the words that match LINK_EVENT's row are its two encodings. -/
theorem and_linkEventMask_eq_iff (w : Word) : w &&& 0xFFFFFEFF#32 = 0x20#32 ↔ ∃ up, encode (.linkEvent up) = w := by
  constructor
  · intro h
    have split_up : w = (w &&& 0xFFFFFEFF#32) ||| (w &&& BitVec.twoPow 32 8) := by
      rw [← BitVec.and_or_distrib_left, show 0xFFFFFEFF#32 ||| BitVec.twoPow 32 8 = BitVec.allOnes 32 by decide,
        BitVec.and_allOnes]
    refine ⟨w.getLsbD 8, ?_⟩
    rw [split_up, h, BitVec.and_twoPow]
    cases w.getLsbD 8 <;> decide
  · rintro ⟨up, rfl⟩
    exact Laws.TableRow.linkEvent up rfl

/-- A well-formed command is decoded from its encoding and from no other word. -/
theorem decode_eq_ok_iff_of_wellFormed {i : Instr} (h : i.wellFormed = true) (w : Word) :
    decode i.port w = .ok i ↔ w = encode i := by
  rw [decode_eq_ok_iff, eq_comm (a := w)]
  exact ⟨fun ⟨_, _, hw⟩ => hw, fun hw => ⟨h, rfl, hw⟩⟩

/-- Settles O5: a row without operands matches its command's encoding alone; the mask of AES_DECRYPT and RADIO_POST keeps
OP and RSV, that of LINK_EVENT all but UP. -/
theorem opcodeTableRowsDecode : Obligations.OpcodeTableRowsDecode := by
  refine ⟨decode_eq_ok_iff_of_wellFormed (i := .nop) rfl, decode_eq_ok_iff_of_wellFormed (i := .keyLoad) rfl,
    fun w => ?aesDecrypt, decode_eq_ok_iff_of_wellFormed (i := .decode) rfl,
    decode_eq_ok_iff_of_wellFormed (i := .mbxTake) rfl, decode_eq_ok_iff_of_wellFormed (i := .linkTick) rfl,
    decode_eq_ok_iff_of_wellFormed (i := .forceReconnect) rfl, decode_eq_ok_iff_of_wellFormed (i := .processFrame) rfl,
    fun w => ?radioPost, fun w => ?linkEvent⟩
  case aesDecrypt =>
    rw [and_opMask_eq_iff_fields w (by decide)]
    simp only [decode, decodeHost_eq_aesDecrypt_iff, exists_and_left, exists_eq', and_true]
  case radioPost =>
    rw [and_opMask_eq_iff_fields w (by decide)]
    simp only [decode, decodeRadio_eq_ok_iff, Instr.radioPost.injEq, exists_and_left, exists_eq', and_true]
  case linkEvent =>
    rw [and_linkEventMask_eq_iff]
    exact exists_congr fun up => decode_eq_ok_iff_of_wellFormed (i := .linkEvent up) rfl w |>.trans eq_comm

end Sys2Proof

/-! Words that run and words that do not (30_encoding R147 to R149; 60_exceptions R403) -/

namespace Sys2Proof.Machine

theorem issueHost_eq_exec {w : Word} {i : Instr} (h : decode .host w = .ok i) (s : State) :
    issueHost w s = exec i s := by
  rw [issueHost, h]

theorem issueHost_eq_finish {w : Word} (h : ¬ ∃ i, decode .host w = .ok i) (s : State) :
    issueHost w s = .next (s.finish .illegalCmd) := by
  cases hd : decode .host w with
  | ok i => exact absurd ⟨i, hd⟩ h
  | error e => rw [issueHost, hd]

theorem issueRadio_eq_exec {w : Word} {i : Instr} (h : decode .radio w = .ok i) (s : State) :
    issueRadio w s = exec i s := by
  rw [issueRadio, h]

theorem issueRadio_eq_self {w : Word} (h : ¬ ∃ i, decode .radio w = .ok i) (s : State) : issueRadio w s = .next s := by
  cases hd : decode .radio w with
  | ok i => exact absurd ⟨i, hd⟩ h
  | error e => rw [issueRadio, hd]

theorem issueNetwork_eq_exec {w : Word} {i : Instr} (h : decode .network w = .ok i) (s : State) :
    issueNetwork w s = exec i s := by
  rw [issueNetwork, h]

theorem issueNetwork_eq_self {w : Word} (h : ¬ ∃ i, decode .network w = .ok i) (s : State) :
    issueNetwork w s = .next s := by
  cases hd : decode .network w with
  | ok i => exact absurd ⟨i, hd⟩ h
  | error e => rw [issueNetwork, hd]

/-- The host words that decode, by the bits of their fields. -/
theorem exists_decode_host_iff (w : Word) : (∃ i, decode .host w = .ok i) ↔
    w.extractLsb' 0 8 ≤ 0x07#8 ∧ w.extractLsb' 24 8 = 0#8 ∧
      (w.extractLsb' 0 8 = 0x02#8 ∨ (w.extractLsb' 8 8 = 0#8 ∧ w.extractLsb' 16 8 = 0#8)) := by
  refine (exists_decodeHost_eq_ok_iff w).trans ?_
  rw [HostLegal, fieldOP_eq, fieldRSV_eq, fieldA_eq, fieldB_eq]
  simp only [BitVec.le_def, ← BitVec.toNat_inj, BitVec.toNat_ofNat]

theorem exists_decode_radio_iff (w : Word) : (∃ i, decode .radio w = .ok i) ↔
    w.extractLsb' 0 8 = 0x10#8 ∧ w.extractLsb' 24 8 = 0#8 := by
  simp only [decode, decodeRadio_eq_ok_iff, exists_and_left, exists_eq', and_true, fieldOP_eq, fieldRSV_eq,
    ← BitVec.toNat_inj, BitVec.toNat_ofNat]

theorem exists_decode_network_iff (w : Word) : (∃ i, decode .network w = .ok i) ↔
    w.extractLsb' 0 8 = 0x20#8 ∧ w.extractLsb' 9 23 = 0#23 := by
  simp only [decode, decodeNetwork_eq_ok_iff, exists_and_left, exists_eq', and_true, fieldOP_eq, fieldNetRSV_eq,
    ← BitVec.toNat_inj, BitVec.toNat_ofNat]

/-- Settles O6: the legal host words are those that decode. -/
theorem hostWordLegality : Obligations.HostWordLegality := by
  intro w s
  refine ⟨fun hlegal => ?_, fun hillegal => issueHost_eq_finish (mt (exists_decode_host_iff w).1 hillegal) s⟩
  obtain ⟨i, hi⟩ := (exists_decode_host_iff w).2 hlegal
  exact ⟨i, hi, issueHost_eq_exec hi s⟩

/-- Settles O7: the legal radio and network words are those that decode. -/
theorem radioAndNetworkWordLegality : Obligations.RadioAndNetworkWordLegality := by
  intro w s
  refine ⟨fun hlegal => ?_, fun hillegal => issueRadio_eq_self (mt (exists_decode_radio_iff w).1 hillegal) s,
    fun hlegal => ?_, fun hillegal => issueNetwork_eq_self (mt (exists_decode_network_iff w).1 hillegal) s⟩
  · obtain ⟨i, hi⟩ := (exists_decode_radio_iff w).2 hlegal
    exact ⟨i, hi, issueRadio_eq_exec hi s⟩
  · obtain ⟨i, hi⟩ := (exists_decode_network_iff w).2 hlegal
    exact ⟨i, hi, issueNetwork_eq_exec hi s⟩

end Sys2Proof.Machine

/-! The packet mailbox (40_mailbox R201 to R209) -/

namespace Sys2Proof.Machine

/-! What the two copies store -/

/-- A frame copied out of another memory reads as it did there. -/
theorem read_writeBytes_readBytes (m src : Memory) (base n a : Nat) :
    (m.writeBytes base (src.readBytes 0 n)).read a =
      if base ≤ a ∧ a < base + n then src.read (a - base) else m.read a := by
  rw [read_writeBytes, readBytes_length]
  split
  · next ha => rw [readBytes_getD _ _ _ _ (by omega), Nat.zero_add]
  · rfl

/-- A slot filled with the first `n` bytes on 128 lines holds them and zeros after (R201). -/
theorem read_writeBytes_fill128 (m : Memory) (d : Vector Byte 128) (n : Nat) (i : Fin 128) :
    (m.writeBytes 0 (fill128 d.toList n)).read i.val = if i.val < n then d[i] else 0 := by
  rw [read_writeBytes, fill128_length, if_pos ⟨Nat.zero_le _, by omega⟩, Nat.sub_zero, fill128_getD _ _ _ i.isLt]
  simp [List.getD]

/-- SLOT_LEN stores every truncated length without loss. -/
theorem toNat_ofNat_min_slotCap (n : Nat) : (BitVec.ofNat 8 (min n slotCap)).toNat = min n 128 := by
  simp only [slotCap, BitVec.toNat_ofNat]
  omega

/-! The two commands -/

/-- Settles O16: the post stores 128 bytes from byte 0 of the slot on, the frame and zeros after it. -/
theorem radioPostFillsTheSlot : Obligations.RadioPostFillsTheSlot := by
  intro n s
  refine ⟨_, rfl, rfl, toNat_ofNat_min_slotCap n, read_writeBytes_fill128 _ _ _, fun a ha => ?_⟩
  refine (read_writeBytes _ _ _ _).trans (if_neg ?_)
  rw [fill128_length]
  omega

theorem exec_mbxTake_of_ready {s : State} (h : s.mbxReady = true) :
    exec .mbxTake s = .next { s with
      mem := s.mem.writeBytes frameBase (s.slot.readBytes 0 slotCap)
      frameLen := s.slotLen, frameRssi := s.slotRssi, frameSnr := s.slotSnr, mbxReady := false, result := .ok } :=
  if_pos h

theorem exec_mbxTake_of_not_ready {s : State} (h : s.mbxReady = false) :
    exec .mbxTake s = .next { s with frameLen := 0, result := .empty } :=
  if_neg (ne_true_of_eq_false h)

/-- Settles O17: the take copies the slot to FRAME_BUF and clears MBX_READY when it is 1, and finishes EMPTY otherwise. -/
theorem takeCopiesThePendingFrame : Obligations.TakeCopiesThePendingFrame := fun s =>
  ⟨fun hready => ⟨_, exec_mbxTake_of_ready hready, rfl, read_writeBytes_readBytes s.mem s.slot frameBase slotCap⟩,
    exec_mbxTake_of_not_ready⟩

/-- Settles O18: whatever the slot held, the second post fills all of it (`radioPostFillsTheSlot`) and the take copies
that (`takeCopiesThePendingFrame`). -/
theorem takeAfterTwoPostsGivesTheSecond : Obligations.TakeAfterTwoPostsGivesTheSecond := by
  intro s n1 n2 e2
  obtain ⟨s1, hpost1, -⟩ := radioPostFillsTheSlot n1 s
  obtain ⟨s2, hpost2, hs2, hlen, hslot, -⟩ := radioPostFillsTheSlot n2 { s1 with env := e2 }
  have hready : s2.mbxReady = true := by rw [hs2]
  have hrssi : s2.slotRssi = e2.radioRssi := by rw [hs2]
  have hsnr : s2.slotSnr = e2.radioSnr := by rw [hs2]
  obtain ⟨t, htake, ht, hmem⟩ := (takeCopiesThePendingFrame s2).1 hready
  refine ⟨s1, s2, t, hpost1, hpost2, htake, by rw [ht], by rw [ht], by rw [ht]; exact hlen, by rw [ht]; exact hrssi,
    by rw [ht]; exact hsnr, fun i => ?_⟩
  rw [hmem, if_pos (by omega), Nat.add_sub_cancel_left, hslot i]

/-! Who posts (R204) -/

/-- What a step does to the block, with the port it serves: nothing; on the host port one register write or an illegal
CMD word; or one command of the port served. -/
theorem step_port_cases (s t : State) (h : step s = .next t) :
    t = { s with env := t.env } ∨
    (s.nextPort = some .host ∧
      ((∃ r v, t = writeReg r v { s with env := t.env }) ∨ t = State.finish .illegalCmd { s with env := t.env })) ∨
    (∃ i, s.nextPort = some i.port ∧ exec i { s with env := t.env } = .next t) := by
  obtain ⟨-, rfl | ⟨turn, rest, hs, h⟩⟩ := step_effects s t h
  · exact .inl rfl
  have hport : s.nextPort = some turn.port := by rw [State.nextPort, hs]; rfl
  obtain rfl | ⟨a, as, hp, -, host⟩ | ⟨q, qs, hp, -, radio⟩ | ⟨w, ws, hp, -, network⟩ := h
  · exact .inl rfl
  all_goals rw [hp] at hport
  · obtain ⟨v, rfl⟩ | ⟨r, v, rfl⟩ | ⟨v, -, ⟨i, hi, hexec⟩ | rfl⟩ := host
    · exact .inl rfl
    · exact .inr (.inl ⟨hport, .inl ⟨r, v, by rw [(writeReg_env r v _).1]; rfl⟩⟩)
    · refine .inr (.inr ⟨i, ?_, by rw [(exec_env i _ t hexec).1]; exact hexec⟩)
      rw [(wellFormed_port_of_decodeHost hi).2, hport]
    · exact .inr (.inl ⟨hport, .inr rfl⟩)
  · obtain ⟨n, hexec⟩ | rfl := radio
    · exact .inr (.inr ⟨.radioPost n, hport, by rw [(exec_env _ _ t hexec).1]; exact hexec⟩)
    · exact .inl rfl
  · obtain ⟨up, hexec⟩ | rfl := network
    · exact .inr (.inr ⟨.linkEvent up, hport, by rw [(exec_env _ _ t hexec).1]; exact hexec⟩)
    · exact .inl rfl

/-- The radio port's one command writes the mailbox and nothing else (R201). -/
theorem exec_frame_of_port_radio {i : Instr} {s t : State} (hi : i.port = .radio) (h : exec i s = .next t) :
    t = { s with slot := t.slot, slotLen := t.slotLen, slotRssi := t.slotRssi, slotSnr := t.slotSnr,
                 mbxReady := t.mbxReady } := by
  cases i with
  | radioPost n => cases h; rfl
  | _ => cases hi

/-- `t` has the slot, its length and its metadata of `s`, and MBX_READY is not newly set. -/
def State.NoPost (s t : State) : Prop :=
  t.slot = s.slot ∧ t.slotLen = s.slotLen ∧ t.slotRssi = s.slotRssi ∧ t.slotSnr = s.slotSnr ∧
    (t.mbxReady = true → s.mbxReady = true)

theorem State.NoPost.refl (s : State) : s.NoPost s := ⟨rfl, rfl, rfl, rfl, id⟩

theorem writeReg_noPost (r : Reg) (v : Word) (s : State) : s.NoPost (writeReg r v s) := by
  cases r <;> simp [writeReg, State.NoPost]

/-- No host or network command posts: of them MBX_TAKE alone writes MBX_READY, and it clears it (R204, R205). -/
theorem exec_noPost {i : Instr} {s t : State} (hi : i.port ≠ .radio) (h : exec i s = .next t) : s.NoPost t := by
  cases i with
  | radioPost n => exact absurd rfl hi
  | nop | forceReconnect => cases h; exact .refl s
  | keyLoad => obtain ⟨-, rfl⟩ | ⟨-, rfl⟩ := execKeyLoad_cases s t h <;> exact .refl s
  | aesDecrypt off len =>
    obtain ⟨-, rfl⟩ | ⟨-, -, -, rfl⟩ := execAesDecrypt_cases off len s t h
    · exact .refl s
    · rw [cbcCore_frame]; exact .refl s
  | decode => cases h; rw [decodeStage_frame]; exact .refl s
  | mbxTake =>
    obtain ⟨-, rfl⟩ | ⟨-, rfl⟩ := execMbxTake_cases s t h
    · exact ⟨rfl, rfl, rfl, rfl, fun hset => absurd hset Bool.false_ne_true⟩
    · exact .refl s
  | linkTick =>
    obtain ⟨-, n, rfl⟩ | ⟨-, -, rfl⟩ | ⟨-, -, rfl⟩ := execLinkTick_cases s t h <;> exact .refl s
  | processFrame =>
    obtain ⟨-, rfl⟩ | ⟨-, -, rfl⟩ | ⟨-, -, r, rfl, rfl⟩ := execProcessFrame_cases s t h
    · exact .refl s
    · exact .refl s
    · rw [runStages_frame]; exact .refl s
  | linkEvent up => rw [(execLinkEvent_frame up s t h).1]; exact .refl s

/-- A step that serves the radio port writes only the mailbox. -/
theorem step_frame_of_nextPort_radio {s t : State} (h : step s = .next t) (hp : s.nextPort = some .radio) :
    t = { s with slot := t.slot, slotLen := t.slotLen, slotRssi := t.slotRssi, slotSnr := t.slotSnr,
                 mbxReady := t.mbxReady, env := t.env } := by
  obtain e | ⟨hhost, -⟩ | ⟨i, hi, hexec⟩ := step_port_cases s t h
  · rw [e]
  · cases hp.symm.trans hhost
  · exact exec_frame_of_port_radio (Option.some.inj (hi.symm.trans hp)) hexec

/-- A step that serves another port, or none, posts nothing. -/
theorem step_noPost {s t : State} (h : step s = .next t) (hp : s.nextPort ≠ some .radio) : s.NoPost t := by
  obtain e | ⟨-, ⟨r, v, e⟩ | e⟩ | ⟨i, hi, hexec⟩ := step_port_cases s t h
  · rw [e]; exact .refl s
  · rw [e]; exact writeReg_noPost r v _
  · rw [e]; exact .refl s
  · have posts : State.NoPost { s with env := t.env } t := exec_noPost (fun hr => hp (hi.trans (congrArg some hr))) hexec
    exact posts

/-- Settles O19: the command a step runs belongs to the port it serves, and RADIO_POST is the radio port's alone. -/
theorem onlyTheRadioPortPosts : Obligations.OnlyTheRadioPortPosts := fun _ _ hstep =>
  ⟨step_frame_of_nextPort_radio hstep, step_noPost hstep⟩

end Sys2Proof.Machine

/-! KEY_LOAD (41_cipher R221) -/

namespace Sys2Proof.Machine

/-- Settles O20: KEY_VALID decides which of the two outcomes it is. -/
theorem keyLoadStoresTheStagedKeyOnce : Obligations.KeyLoadStoresTheStagedKeyOnce := fun _ =>
  ⟨fun hk => if_neg (ne_true_of_eq_false hk), fun hk => if_pos hk⟩

end Sys2Proof.Machine

/-! CBC and its padding (41_cipher R237, R238) -/

namespace Sys2Proof.Machine

/-! Blocks of a byte sequence -/

theorem chunk_getElem (B : List Byte) (j i : Nat) (h : i < 16) : (chunk B j)[i] = B.getD (16 * j + i) 0 := by
  simp [chunk, blockOfBytes, List.getD]

theorem chunk_zero (B : List Byte) : chunk B 0 = blockOfBytes B := rfl

theorem chunk_drop (B : List Byte) (j : Nat) : chunk (B.drop 16) j = chunk B (j + 1) := by
  rw [chunk, chunk, List.drop_drop, Nat.mul_succ, Nat.add_comm]

theorem chunk_append_zero (b : Block) (B : List Byte) : chunk (b.toList ++ B) 0 = b := by
  apply Vector.ext
  intro i hi
  rw [chunk_getElem _ _ _ hi, Nat.mul_zero, Nat.zero_add, List.getD_append _ _ _ _ (by simpa using hi)]
  simp [List.getD, hi]

theorem chunk_append_succ (b : Block) (B : List Byte) (j : Nat) : chunk (b.toList ++ B) (j + 1) = chunk B j := by
  rw [← chunk_drop, List.drop_left' b.length_toList]

/-- Byte sequences of one length that agree block by block are equal. -/
theorem eq_of_chunk_eq {A B : List Byte} (hlen : A.length = B.length)
    (h : ∀ j, 16 * j < A.length → chunk A j = chunk B j) : A = B := by
  refine List.ext_getElem hlen fun i hA hB => ?_
  have hr : i % 16 < 16 := Nat.mod_lt _ (by decide)
  have hbyte := chunk_getElem A (i / 16) (i % 16) hr
  rw [h (i / 16) (by omega), chunk_getElem B _ _ hr, Nat.div_add_mod] at hbyte
  simpa [List.getD, hA, hB] using hbyte.symm

theorem xorBlock_xorBlock_same (a b : Block) : xorBlock (xorBlock a b) b = a := by
  apply Vector.ext
  intro i hi
  simp only [xorBlock_getElem _ _ _ hi, BitVec.xor_assoc, BitVec.xor_self, BitVec.xor_zero]

/-! Decryption -/

/-- Plaintext block `j` needs ciphertext blocks `j` and `j - 1` alone (R237). -/
theorem chunk_cbcDecrypt (k : Block) (n : Nat) : ∀ (iv : Block) (ct : List Byte) (j : Nat), j < n →
    chunk (cbcDecrypt k n iv ct) j =
      xorBlock (aesDec k (chunk ct j)) (if j = 0 then iv else chunk ct (j - 1)) := by
  induction n with
  | zero => intro iv ct j hj; omega
  | succ n ih =>
    intro iv ct j hj
    cases j with
    | zero => exact chunk_append_zero _ _
    | succ j =>
      simp only [cbcDecrypt, blk, chunk_append_succ, ih _ _ j (by omega), chunk_drop, ← chunk_zero]
      cases j <;> rfl

/-- Settles O24, by induction on the number of blocks. -/
theorem cbcChainsOnTheCiphertext : Obligations.CbcChainsOnTheCiphertext := fun k iv n ct _ =>
  ⟨cbcDecrypt_length k n iv ct, chunk_cbcDecrypt k n iv ct⟩

/-- Decryption gives back what a reference encryptor encrypted: the exclusive or with the block before cancels (R242). -/
theorem cbcDecrypt_of_cbcEncrypts {k iv : Block} {Q C : List Byte} (h : CbcEncrypts k iv Q C) :
    cbcDecrypt k (C.length / 16) iv C = Q := by
  obtain ⟨hlen, hblocks, henc⟩ := h
  have hplain : (cbcDecrypt k (C.length / 16) iv C).length = Q.length := by rw [cbcDecrypt_length]; omega
  refine eq_of_chunk_eq hplain fun j hj => ?_
  rw [chunk_cbcDecrypt k _ iv C j (by omega), henc j (by omega), xorBlock_xorBlock_same]

/-! Unpadding -/

/-- Unpadding accepts `p` bytes of value `p` with `1 <= p <= 16` and takes them off, whatever stands before them. -/
theorem unpad_append_replicate (Q : List Byte) {p : Nat} (hlo : 1 ≤ p) (hhi : p ≤ 16) :
    unpad (Q ++ List.replicate p (BitVec.ofNat 8 p)) = some Q := by
  have hp : (BitVec.ofNat 8 p).toNat = p := by rw [BitVec.toNat_ofNat]; omega
  have hlast : (Q ++ List.replicate p (BitVec.ofNat 8 p)).getD (Q.length + p - 1) 0 = BitVec.ofNat 8 p := by
    rw [List.getD_append_right _ _ _ _ (by omega), List.getD_replicate _ (by omega)]
  simp only [unpad, List.length_append, List.length_replicate, hlast, hp, padMax]
  rw [if_neg (by omega), Nat.add_sub_cancel]
  simp [hp]

/-- What unpadding gives stands before bytes of one value, as many as the value says. -/
theorem eq_append_replicate_of_unpad {P Q : List Byte} (hlen : 16 ≤ P.length) (h : unpad P = some Q) :
    ∃ p, 1 ≤ p ∧ p ≤ 16 ∧ P = Q ++ List.replicate p (BitVec.ofNat 8 p) := by
  obtain ⟨p, hlo, hhi, rfl, hall, -⟩ := unpad_some P Q h
  have htail : P.drop (P.length - p) = List.replicate p (BitVec.ofNat 8 p) := by
    refine List.eq_replicate_iff.2 ⟨by rw [List.length_drop]; omega, fun b hb => ?_⟩
    rw [← hall b hb, BitVec.ofNat_toNat, BitVec.setWidth_eq]
  exact ⟨p, hlo, hhi, by rw [← htail, List.take_append_drop]⟩

/-- Settles O25: a plaintext of whole blocks has room for 16 bytes of padding. -/
theorem unpadAcceptsExactlyPkcs7 : Obligations.UnpadAcceptsExactlyPkcs7 := by
  intro P hpos hblocks
  have hiff : ∀ Q, unpad P = some Q ↔
      ∃ p, 1 ≤ p ∧ p ≤ 16 ∧ P = Q ++ List.replicate p (BitVec.ofNat 8 p) := fun Q =>
    ⟨eq_append_replicate_of_unpad (by omega), fun ⟨_, hlo, hhi, hP⟩ => hP ▸ unpad_append_replicate Q hlo hhi⟩
  refine ⟨hiff, ?_⟩
  rw [Option.eq_none_iff_forall_ne_some, exists_comm]
  simp only [ne_eq, hiff, not_exists]

theorem pad_length (P : List Byte) : (pad P).length = 16 - P.length % 16 := List.length_replicate

theorem unpad_append_pad (P : List Byte) : unpad (P ++ pad P) = some P :=
  unpad_append_replicate P (by omega) (by omega)

end Sys2Proof.Machine

/-! The CBC core and its two users (41_cipher R230 to R242) -/

namespace Sys2Proof.Machine

/-! The core -/

theorem cbcCore_of_not_keyValid {s : State} (hk : s.keyValid = false) (iv : Block) (ct : List Byte) :
    cbcCore iv ct s = (.cipherFail, s) :=
  if_neg (ne_true_of_eq_false hk)

theorem cbcCore_of_unpad_none {s : State} {iv : Block} {ct : List Byte} (hk : s.keyValid = true)
    (hP : unpad (cbcDecrypt s.key (ct.length / 16) iv ct) = none) :
    cbcCore iv ct s = (.invalidPadding, { s with decCount := s.decCount + 1 }) := by
  simp only [cbcCore, hk, if_true, blk, hP]

theorem cbcCore_of_unpad_some {s : State} {iv : Block} {ct Q : List Byte} (hk : s.keyValid = true)
    (hP : unpad (cbcDecrypt s.key (ct.length / 16) iv ct) = some Q) :
    cbcCore iv ct s = (.ok, { s with
      decCount := s.decCount + 1
      mem := s.mem.writeBytes ptBase (fill128 Q Q.length)
      ptLen := BitVec.ofNat 8 Q.length }) := by
  simp only [cbcCore, hk, if_true, blk, hP, State.storeWindow]

/-- DEC_COUNT counts the runs that pass the key check; the others answer CIPHER_FAIL (R236). -/
theorem cbcCore_decCount (iv : Block) (ct : List Byte) (s : State) :
    (cbcCore iv ct s).2.decCount = s.decCount + if (cbcCore iv ct s).1 = .cipherFail then 0 else 1 := by
  obtain ⟨-, e⟩ | ⟨-, -, e⟩ | ⟨P, -, -, e⟩ := cbcCore_cases iv ct s <;> simp [e]

theorem cbcCore_code (iv : Block) (ct : List Byte) (s : State) :
    (cbcCore iv ct s).1 = .cipherFail ∨ (cbcCore iv ct s).1 = .invalidPadding ∨ (cbcCore iv ct s).1 = .ok := by
  obtain ⟨-, e⟩ | ⟨-, -, e⟩ | ⟨P, -, -, e⟩ := cbcCore_cases iv ct s <;> simp [e]

/-! The plaintext in PT_BUF -/

/-- The core stores the plaintext from the start of PT_BUF on and zeros after it, and nothing else (R235). -/
theorem read_writeBytes_plaintext (m : Memory) (Q : List Byte) (a : Nat) :
    (m.writeBytes ptBase (fill128 Q Q.length)).read a =
      if 0x180 ≤ a ∧ a < 0x200 then (if a - 0x180 < Q.length then Q.getD (a - 0x180) 0 else 0) else m.read a := by
  rw [read_writeBytes, fill128_length]
  exact ite_congr rfl (fun ha => fill128_getD Q Q.length (a - ptBase) (by simp only [ptBase]; omega)) fun _ => rfl

/-- PT_BUF as bytes, in a state whose memory the core has written: the plaintext's bytes, 0 past its end. -/
theorem ptBytes_eq_map_getD {t : State} {m : Memory} {Q : List Byte} {n : Nat} (hn : n ≤ 128)
    (h : ∀ a, t.mem.read a =
      if 0x180 ≤ a ∧ a < 0x200 then (if a - 0x180 < Q.length then Q.getD (a - 0x180) 0 else 0) else m.read a) :
    t.ptBytes 0 n = (List.range n).map fun i => Q.getD i 0 := by
  refine List.map_congr_left fun i hi => ?_
  have hi := List.mem_range.1 hi
  rw [h, if_pos (by simp only [ptBase]; omega), Nat.add_zero, Nat.add_sub_cancel_left]
  split
  · rfl
  · next hend => rw [List.getD_eq_default _ _ (by omega)]

theorem map_range_getD (Q : List Byte) : (List.range Q.length).map (fun i => Q.getD i 0) = Q := by
  refine List.ext_getElem (by simp) fun i _ hi => ?_
  simp [List.getD, hi]

/-! AES_DECRYPT -/

theorem exec_aesDecrypt_of_invalid {off len : Nat} (h : len = 0 ∨ len % 16 ≠ 0 ∨ off + len > 128) (s : State) :
    exec (.aesDecrypt off len) s = .next { s with result := .invalidLength } :=
  if_pos (by omega)

theorem exec_aesDecrypt_of_valid {off len : Nat} (hpos : 0 < len) (hblocks : len % 16 = 0) (hend : off + len ≤ 128)
    (s : State) : exec (.aesDecrypt off len) s =
      .next ((cbcCore s.ivr (s.frameBytes off len) s).2.finish (cbcCore s.ivr (s.frameBytes off len) s).1) :=
  if_neg (by omega)

/-- Settles O23: past the length check the outcome is the core's, one for each of its three answers. -/
theorem aesDecryptOutcomes : Obligations.AesDecryptOutcomes := by
  intro off len s P
  refine ⟨fun hinvalid => exec_aesDecrypt_of_invalid hinvalid s, fun hpos hblocks hend => ?_⟩
  have hlen : (s.frameBytes off len).length = len := readBytes_length _ _ _
  have hrun := exec_aesDecrypt_of_valid hpos hblocks hend s
  refine ⟨fun hk => ?_, fun hk hP => ?_, fun Q hk hP => ?_⟩
  · rw [hrun, cbcCore_of_not_keyValid hk]; rfl
  · rw [hrun, cbcCore_of_unpad_none hk (by rw [hlen]; exact hP)]; rfl
  · have hQ : Q.length ≤ len := hlen ▸ length_unpad_cbcDecrypt_le (by rw [hlen]; exact hP)
    rw [cbcCore_of_unpad_some hk (by rw [hlen]; exact hP)] at hrun
    refine ⟨_, hrun, rfl, ?_, read_writeBytes_plaintext s.mem Q⟩
    simp only [finish_ptLen, BitVec.toNat_ofNat]
    omega

/-- Settles O27: the outcomes of `aesDecryptOutcomes` are told apart by what the two states share. -/
theorem decryptionDependsOnKeyIvAndCiphertext : Obligations.DecryptionDependsOnKeyIvAndCiphertext := by
  intro off len s1 s2 hkv hkey hiv hct
  obtain ⟨hinvalid1, hvalid1⟩ := aesDecryptOutcomes off len s1
  obtain ⟨hinvalid2, hvalid2⟩ := aesDecryptOutcomes off len s2
  by_cases hlegal : len = 0 ∨ len % 16 ≠ 0 ∨ off + len > 128
  · exact ⟨_, _, hinvalid1 hlegal, hinvalid2 hlegal, rfl, fun hok => by cases hok⟩
  obtain ⟨hnokey1, hbad1, hgood1⟩ := hvalid1 (by omega) (by omega) (by omega)
  obtain ⟨hnokey2, hbad2, hgood2⟩ := hvalid2 (by omega) (by omega) (by omega)
  rw [← hkv, ← hkey, ← hiv, ← hct] at hbad2 hgood2
  cases hk : s1.keyValid with
  | false => exact ⟨_, _, hnokey1 hk, hnokey2 (hkv ▸ hk), rfl, fun hok => by cases hok⟩
  | true =>
    cases hP : unpad (cbcDecrypt s1.key (len / 16) s1.ivr (s1.frameBytes off len)) with
    | none => exact ⟨_, _, hbad1 hk hP, hbad2 hk hP, rfl, fun hok => by cases hok⟩
    | some Q =>
      obtain ⟨t1, hrun1, ht1, hlen1, hmem1⟩ := hgood1 Q hk hP
      obtain ⟨t2, hrun2, ht2, hlen2, hmem2⟩ := hgood2 Q hk hP
      refine ⟨t1, t2, hrun1, hrun2, by rw [ht1, ht2], fun _ => ⟨BitVec.eq_of_toNat_eq (hlen1.trans hlen2.symm), ?_⟩⟩
      rw [ptBytes_eq_map_getD le_rfl hmem1, ptBytes_eq_map_getD le_rfl hmem2]

/-! PROCESS_FRAME -/

theorem runStages_of_core_ne_ok {iv : Block} {ct : List Byte} {s : State} (h : (cbcCore iv ct s).1 ≠ .ok) :
    runStages iv ct s = cbcCore iv ct s :=
  if_neg h

/-- Past the core the code is the decode stage's (R313). -/
theorem runStages_code_of_core_ok {iv : Block} {ct : List Byte} {s : State} (h : (cbcCore iv ct s).1 = .ok) :
    (runStages iv ct s).1 = .ok ∨ (runStages iv ct s).1 = .sizeMismatch ∨
      (runStages iv ct s).1 = .checksumMismatch := by
  obtain ⟨hne, -⟩ | ⟨-, -, e⟩ | ⟨-, -, e⟩ := runStages_cases iv ct s
  · exact absurd h hne
  · rw [e]; exact decodeStage_code _
  · exact .inl (by rw [e])

/-- The stages count the core's runs as the core does, and never answer a framing code (R236, R313). -/
theorem runStages_decCount (iv : Block) (ct : List Byte) (s : State) :
    (runStages iv ct s).2.decCount = s.decCount +
      if (runStages iv ct s).1 = .frameShort ∨ (runStages iv ct s).1 = .frameAlign ∨
        (runStages iv ct s).1 = .cipherFail then 0 else 1 := by
  rw [runStages_frame, cbcCore_decCount]
  obtain hcode | hcode | hcode := cbcCore_code iv ct s
  · rw [runStages_of_core_ne_ok (by simp [hcode]), hcode]; rfl
  · rw [runStages_of_core_ne_ok (by simp [hcode]), hcode]; rfl
  · obtain e | e | e := runStages_code_of_core_ok hcode <;> rw [e, hcode] <;> rfl

/-- PROCESS_FRAME of a frame that passes the framing checks answers what the stages answer (R311, R312). -/
theorem exec_processFrame_of_framed {s : State} (hshort : 32 ≤ s.frameLen.toNat)
    (halign : (s.frameLen.toNat - 16) % 16 = 0) :
    ∃ r, r = runStages (blockOfBytes (s.frameBytes 0 16)) (s.frameBytes 16 (s.frameLen.toNat - 16))
        { s with publish := false } ∧
      exec .processFrame s = .next (r.2.finish r.1) :=
  ⟨_, rfl, (if_neg (Nat.not_lt.2 hshort)).trans (if_neg (not_not.2 halign))⟩

/-! The counter -/

/-- The two users of the core apart, no command touches DEC_COUNT. -/
theorem exec_decCount {i : Instr} {s t : State} (hi : ∀ off len, i ≠ .aesDecrypt off len) (hp : i ≠ .processFrame)
    (h : exec i s = .next t) : t.decCount = s.decCount := by
  cases i with
  | aesDecrypt off len => exact absurd rfl (hi off len)
  | processFrame => exact absurd rfl hp
  | nop | forceReconnect | radioPost => cases h; rfl
  | keyLoad => obtain ⟨-, rfl⟩ | ⟨-, rfl⟩ := execKeyLoad_cases s t h <;> rfl
  | decode => cases h; rw [decodeStage_frame]; rfl
  | mbxTake => obtain ⟨-, rfl⟩ | ⟨-, rfl⟩ := execMbxTake_cases s t h <;> rfl
  | linkTick =>
    obtain ⟨-, n, rfl⟩ | ⟨-, -, rfl⟩ | ⟨-, -, rfl⟩ := execLinkTick_cases s t h <;> rfl
  | linkEvent up => rw [(execLinkEvent_frame up s t h).1]

/-- Settles O26: the core counts, and its two users answer a code of their own only where it does not run. -/
theorem decCountCountsTheCoreRuns : Obligations.DecCountCountsTheCoreRuns := by
  refine ⟨fun off len s t h => ?_, fun s t h => ?_, fun i s t hi hp h => exec_decCount hi hp h, fun w e s t he h => ?_⟩
  · obtain ⟨-, rfl⟩ | ⟨-, -, -, rfl⟩ := execAesDecrypt_cases off len s t h
    · simp
    · rw [finish_decCount, finish_result, cbcCore_decCount]
      obtain e | e | e := cbcCore_code s.ivr (s.frameBytes off len) s <;> rw [e] <;> rfl
  · obtain ⟨-, rfl⟩ | ⟨-, -, rfl⟩ | ⟨-, -, r, rfl, rfl⟩ := execProcessFrame_cases s t h
    · simp
    · simp
    · rw [finish_decCount, finish_result, runStages_decCount]
  · obtain ⟨i, hi, -⟩ | ⟨-, -, rfl⟩ := issueHost_cases w s t h
    · cases he.symm.trans hi
    · rfl

/-! The round trip (R242) -/

theorem unpad_cbcDecrypt_of_cbcEncrypts {k iv : Block} {P C : List Byte} (h : CbcEncrypts k iv (P ++ pad P) C) :
    unpad (cbcDecrypt k (C.length / 16) iv C) = some P := by
  rw [cbcDecrypt_of_cbcEncrypts h, unpad_append_pad]

/-- The padding makes the ciphertext whole blocks and longer than the plaintext. -/
theorem length_of_cbcEncrypts_pad {k iv : Block} {P C : List Byte} (h : CbcEncrypts k iv (P ++ pad P) C) :
    P.length < C.length ∧ C.length % 16 = 0 := by
  obtain ⟨hlen, hblocks, -⟩ := h
  rw [List.length_append, pad_length] at hlen hblocks
  omega

/-- PROCESS_FRAME of a frame whose padding passes leaves the plaintext in PT_BUF and its length in PT_LEN, whatever the
decode stage makes of it (R311, R313). -/
theorem exec_processFrame_of_unpad_some {s : State} {ct Q : List Byte} (hshort : 32 ≤ s.frameLen.toNat)
    (halign : (s.frameLen.toNat - 16) % 16 = 0) (hk : s.keyValid = true)
    (hct : s.frameBytes 16 (s.frameLen.toNat - 16) = ct)
    (hP : unpad (cbcDecrypt s.key (ct.length / 16) (blockOfBytes (s.frameBytes 0 16)) ct) = some Q) :
    ∃ t, exec .processFrame s = .next t ∧
      (t.result = .ok ∨ t.result = .sizeMismatch ∨ t.result = .checksumMismatch) ∧ t.ptLen.toNat = Q.length ∧
      ∀ a, t.mem.read a = if 0x180 ≤ a ∧ a < 0x200
        then (if a - 0x180 < Q.length then Q.getD (a - 0x180) 0 else 0) else s.mem.read a := by
  obtain ⟨r, hr, hrun⟩ := exec_processFrame_of_framed hshort halign
  rw [hct] at hr
  have hcore := cbcCore_of_unpad_some (s := { s with publish := false }) hk hP
  have hcode := runStages_code_of_core_ok (congrArg Prod.fst hcore)
  have hstages := runStages_frame (blockOfBytes (s.frameBytes 0 16)) ct { s with publish := false }
  rw [← hr] at hcode hstages
  rw [hcore] at hstages
  have hctLen : ct.length = s.frameLen.toNat - 16 := hct ▸ readBytes_length _ _ _
  have hQ := length_unpad_cbcDecrypt_le hP
  refine ⟨_, hrun, hcode, ?_, ?_⟩
  · rw [finish_ptLen, hstages, BitVec.toNat_ofNat]; omega
  · rw [finish_mem, hstages]; exact read_writeBytes_plaintext s.mem Q

/-- Settles O29: the core gives back the plaintext and takes its padding off, and the decode stage leaves it. -/
theorem decryptionInvertsEncryption : Obligations.DecryptionInvertsEncryption := by
  intro s P C hk
  refine ⟨fun off _ henc hend hct => ?_, fun iv hP henc hframe hiv hct => ?_⟩
  · obtain ⟨hPC, hblocks⟩ := length_of_cbcEncrypts_pad henc
    obtain ⟨-, -, hgood⟩ := (aesDecryptOutcomes off C.length s).2 (by omega) hblocks hend
    obtain ⟨t, hrun, ht, hptLen, hmem⟩ := hgood P hk (by rw [hct]; exact unpad_cbcDecrypt_of_cbcEncrypts henc)
    refine ⟨t, hrun, by rw [ht], hptLen, ?_⟩
    rw [ptBytes_eq_map_getD (by omega) hmem, map_range_getD]
  · obtain ⟨hPC, hblocks⟩ := length_of_cbcEncrypts_pad henc
    have hplain := unpad_cbcDecrypt_of_cbcEncrypts henc
    rw [← hiv] at hplain
    obtain ⟨t, hrun, hcode, hptLen, hmem⟩ := exec_processFrame_of_unpad_some (by omega) (by omega) hk
      (by rw [hframe, Nat.add_sub_cancel_left, hct]) hplain
    refine ⟨t, hrun, ?_, ?_, hptLen, ?_⟩
    · obtain e | e | e := hcode <;> simp [e]
    · obtain e | e | e := hcode <;> simp [e]
    · rw [ptBytes_eq_map_getD (by omega) hmem, map_range_getD]

end Sys2Proof.Machine

/-! The AES-128 inverse cipher is a bijection (41_cipher R250 to R259) -/

namespace Sys2Proof.Machine

/-! The state bytes -/

theorem stateByte_ofState (f : Nat → Nat → Byte) {q c : Nat} (hq : q < 4) (hc : c < 4) :
    stateByte (ofState f) q c = f q c := by
  have hi : q + 4 * c < 16 := by omega
  have hmod : (q + 4 * c) % 4 = q := by omega
  have hdiv : (q + 4 * c) / 4 = c := by omega
  simp [stateByte, ofState, List.getD, hi, hmod, hdiv]

/-- A block is its 16 state bytes (R250). -/
theorem eq_of_stateByte_eq {s t : Block} (h : ∀ q c, q < 4 → c < 4 → stateByte s q c = stateByte t q c) : s = t := by
  apply Vector.ext
  intro i hi
  have hbyte := h (i % 4) (i / 4) (by omega) (by omega)
  rw [stateByte, stateByte, Nat.mod_add_div] at hbyte
  simpa [List.getD, hi] using hbyte

theorem eq_of_ofState_eq {f g : Nat → Nat → Byte} (h : ofState f = ofState g) {q c : Nat} (hq : q < 4) (hc : c < 4) :
    f q c = g q c := by
  rw [← stateByte_ofState f hq hc, h, stateByte_ofState g hq hc]

/-! The three layers without field arithmetic -/

theorem addRoundKey_injective (w : List KeyWord) (r : Nat) : Function.Injective (addRoundKey w r) := fun _ _ h =>
  eq_of_stateByte_eq fun _ _ hq hc => (BitVec.xor_left_inj _).1 (eq_of_ofState_eq h hq hc)

/-- Byte `s[q][c]` goes to column `c + q` of its row. -/
theorem invShiftRows_injective : Function.Injective invShiftRows := fun s t h =>
  eq_of_stateByte_eq fun q c hq hc => by
    have hbyte := eq_of_ofState_eq h hq (Nat.mod_lt (c + q) (by decide))
    rwa [show ((c + q) % 4 + 4 - q) % 4 = c by omega] at hbyte

/-- S undoes InvS (R252, R253). -/
theorem sbox_invSbox : ∀ a : Byte, sbox (invSbox a) = a := by decide +kernel

theorem invSubBytes_injective : Function.Injective invSubBytes := fun _ _ h =>
  eq_of_stateByte_eq fun _ _ hq hc => Function.LeftInverse.injective sbox_invSbox (eq_of_ofState_eq h hq hc)

/-! InvMixColumns: multiplication is linear, and MixColumns undoes it -/

/-- One turn of the sum that is `a • b`: the term of bit `k` (R251). -/
def addTerm (a b acc : Byte) (k : Nat) : Byte := if b.getLsbD k then acc ^^^ xtimes k a else acc

theorem gmul_eq_foldl (a b : Byte) : gmul a b = (List.range 8).foldl (addTerm a b) 0 := rfl

theorem addTerm_xor (a b c x y : Byte) (k : Nat) :
    addTerm a (b ^^^ c) (x ^^^ y) k = addTerm a b x k ^^^ addTerm a c y k := by
  simp only [addTerm, BitVec.getLsbD_xor]
  cases b.getLsbD k <;> cases c.getLsbD k
  · rfl
  · exact BitVec.xor_assoc x y _
  · exact (by ac_rfl : x ^^^ y ^^^ xtimes k a = x ^^^ xtimes k a ^^^ y)
  · calc x ^^^ y = x ^^^ y ^^^ (xtimes k a ^^^ xtimes k a) := by rw [BitVec.xor_self, BitVec.xor_zero]
      _ = x ^^^ xtimes k a ^^^ (y ^^^ xtimes k a) := by ac_rfl

theorem foldl_addTerm_xor (a b c : Byte) (l : List Nat) : ∀ x y : Byte,
    l.foldl (addTerm a (b ^^^ c)) (x ^^^ y) = l.foldl (addTerm a b) x ^^^ l.foldl (addTerm a c) y := by
  induction l with
  | nil => intro x y; rfl
  | cons k l ih => intro x y; rw [List.foldl_cons, addTerm_xor, ih]; rfl

/-- `a • (b ^ c) = a • b ^ a • c`. -/
theorem gmul_xor (a b c : Byte) : gmul a (b ^^^ c) = gmul a b ^^^ gmul a c :=
  foldl_addTerm_xor a b c (List.range 8) 0 0

theorem one_gmul : ∀ x : Byte, gmul 1 x = x := by decide +kernel

/-- Linear maps of bytes that agree on the powers of 0x02 are equal: a byte is the sum of the powers at its bits. -/
theorem eq_of_eq_on_powers {f g : Byte → Byte} (hf : ∀ x y, f (x ^^^ y) = f x ^^^ f y)
    (hg : ∀ x y, g (x ^^^ y) = g x ^^^ g y) (h : ∀ k < 8, f (xtimes k 1) = g (xtimes k 1)) (x : Byte) : f x = g x := by
  have hzero : ∀ {f : Byte → Byte}, (∀ x y, f (x ^^^ y) = f x ^^^ f y) → f 0 = 0 := fun {f} hf =>
    (hf 0 0).trans BitVec.xor_self
  rw [← one_gmul x, gmul_eq_foldl]
  refine List.foldlRecOn (motive := fun y => f y = g y) _ _ ((hzero hf).trans (hzero hg).symm) fun acc hacc k hk => ?_
  unfold addTerm
  split
  · rw [hf, hg, hacc, h k (List.mem_range.1 hk)]
  · exact hacc

/-- Byte `q` of the product of a column matrix with the column `a` (R258). -/
def columnByte (coeff : Nat → Nat → Byte) (a : Nat → Byte) (q : Nat) : Byte :=
  gmul (coeff q 0) (a 0) ^^^ gmul (coeff q 1) (a 1) ^^^ gmul (coeff q 2) (a 2) ^^^ gmul (coeff q 3) (a 3)

theorem invMixColumns_eq (s : Block) :
    invMixColumns s = ofState fun q c => columnByte invMixCoeff (fun j => stateByte s j c) q := rfl

theorem columnByte_congr (coeff : Nat → Nat → Byte) {a b : Nat → Byte} (h : ∀ j < 4, a j = b j) (q : Nat) :
    columnByte coeff a q = columnByte coeff b q := by
  simp only [columnByte, h 0 (by decide), h 1 (by decide), h 2 (by decide), h 3 (by decide)]

theorem columnByte_xor (coeff : Nat → Nat → Byte) (a b : Nat → Byte) (q : Nat) :
    columnByte coeff (fun j => a j ^^^ b j) q = columnByte coeff a q ^^^ columnByte coeff b q := by
  simp only [columnByte, gmul_xor]
  ac_rfl

/-- Row `q` of the column matrix that undoes R258's: 0x02, 0x03, 0x01, 0x01 rotated right by `q`, as FIPS 197 has it. -/
def mixCoeff (q j : Nat) : Byte := ([0x02, 0x03, 0x01, 0x01] : List Byte).getD ((j + 4 - q) % 4) 0

theorem mixCoeff_invMixCoeff_power : ∀ q < 4, ∀ i < 4, ∀ k < 8,
    columnByte mixCoeff (fun j => gmul (invMixCoeff j i) (xtimes k 1)) q = if q = i then xtimes k 1 else 0 := by
  decide +kernel

/-- The product of the two matrices is the unit matrix: its entry in row `q` and column `i`, applied to a byte. -/
theorem mixCoeff_invMixCoeff {q i : Nat} (hq : q < 4) (hi : i < 4) (x : Byte) :
    columnByte mixCoeff (fun j => gmul (invMixCoeff j i) x) q = if q = i then x else 0 := by
  refine eq_of_eq_on_powers (f := fun x => columnByte mixCoeff (fun j => gmul (invMixCoeff j i) x) q)
    (g := fun x => if q = i then x else 0) (fun x y => ?_) (fun x y => ?_) (mixCoeff_invMixCoeff_power q hq i hi) x
  · simp only [gmul_xor, columnByte_xor]
  · split
    · rfl
    · exact BitVec.xor_self.symm

/-- A column is the sum of its four bytes' columns, and the matrices undo each other on each. -/
theorem columnByte_mixCoeff_invMixCoeff (a : Nat → Byte) {q : Nat} (hq : q < 4) :
    columnByte mixCoeff (columnByte invMixCoeff a) q = a q := by
  have hsum : columnByte invMixCoeff a = fun j => gmul (invMixCoeff j 0) (a 0) ^^^ gmul (invMixCoeff j 1) (a 1) ^^^
    gmul (invMixCoeff j 2) (a 2) ^^^ gmul (invMixCoeff j 3) (a 3) := rfl
  simp only [hsum, columnByte_xor, mixCoeff_invMixCoeff hq, Nat.reduceLT]
  interval_cases q <;> simp

/-- MixColumns. -/
def mixColumns (s : Block) : Block := ofState fun q c => columnByte mixCoeff (fun j => stateByte s j c) q

theorem mixColumns_invMixColumns : Function.LeftInverse mixColumns invMixColumns := fun s =>
  eq_of_stateByte_eq fun q c hq hc => by
    rw [mixColumns, stateByte_ofState _ hq hc, invMixColumns_eq,
      columnByte_congr mixCoeff fun j hj => stateByte_ofState _ hj hc]
    exact columnByte_mixCoeff_invMixCoeff _ hq

/-! The cipher -/

theorem invRounds_injective (w : List KeyWord) (r : Nat) : Function.Injective (invRounds w r) := by
  have hsub : Function.Injective fun s => invSubBytes (invShiftRows s) :=
    invSubBytes_injective.comp invShiftRows_injective
  induction r with
  | zero => exact (addRoundKey_injective w 0).comp hsub
  | succ r ih =>
    exact ih.comp (mixColumns_invMixColumns.injective.comp ((addRoundKey_injective w (r + 1)).comp hsub))

theorem aesDec_injective (k : Block) : Function.Injective (aesDec k) :=
  (invRounds_injective _ 9).comp (addRoundKey_injective _ 10)

theorem finite_block : Finite Block :=
  Finite.of_injective (fun (b : Block) (i : Fin 16) => b[i]) fun _ _ h => Vector.ext fun i hi => congrFun h ⟨i, hi⟩

/-- Settles O28: every layer of the inverse cipher is injective, and the blocks are finitely many. -/
theorem aesDecIsABijection : Obligations.AesDecIsABijection := fun k =>
  have := finite_block
  Finite.injective_iff_bijective.1 (aesDec_injective k)

end Sys2Proof.Machine

/-! DECODE and the record it reads (42_codec R261 to R268) -/

namespace Sys2Proof.Machine

/-! The decode stage and the command (R265, R266) -/

theorem decodeStage_of_ptLen_ne {s : State} (hsize : s.ptLen.toNat ≠ 11) :
    decodeStage s = (.sizeMismatch, s.dropReading) :=
  if_pos hsize

theorem decodeStage_of_sum8_ne {s : State} (hsize : s.ptLen.toNat = 11)
    (hsum : sum8 (s.ptBytes 0 11) 0 10 ≠ ((s.ptBytes 0 11).getD 10 0).toNat) :
    decodeStage s = (.checksumMismatch, s.dropReading) :=
  (if_neg (not_not.2 hsize)).trans (if_pos hsum)

theorem decodeStage_of_sum8_eq {s : State} (hsize : s.ptLen.toNat = 11)
    (hsum : sum8 (s.ptBytes 0 11) 0 10 = ((s.ptBytes 0 11).getD 10 0).toNat) :
    decodeStage s = (.ok, s.latchReading (s.ptBytes 0 11)) :=
  (if_neg (not_not.2 hsize)).trans (if_neg (not_not.2 hsum))

/-- DECODE finishes with the code and the state of the decode stage. -/
theorem exec_decode_of_decodeStage_eq {s t : State} {code : ResultCode} (h : decodeStage s = (code, t)) :
    exec .decode s = .next (t.finish code) := by
  simp only [exec, execDecode, h]

/-! The fields as numbers of their bytes (R262) -/

theorem ptBytes_getD (s : State) {n i : Nat} (h : i < n) : (s.ptBytes 0 n).getD i 0 = s.mem.read (0x180 + i) :=
  readBytes_getD s.mem ptBase n i h

/-- The checksum of a record (R261). -/
theorem sum8_ten (B : List Byte) :
    sum8 B 0 10 = ((B.getD 0 0).toNat + (B.getD 1 0).toNat + (B.getD 2 0).toNat + (B.getD 3 0).toNat +
      (B.getD 4 0).toNat + (B.getD 5 0).toNat + (B.getD 6 0).toNat + (B.getD 7 0).toNat + (B.getD 8 0).toNat +
      (B.getD 9 0).toNat) % 256 := by
  simp only [sum8, Nat.zero_add, List.range_succ, List.range_zero, List.nil_append, List.cons_append, List.map_cons,
    List.map_nil, List.sum_cons, List.sum_nil, Nat.add_zero, Nat.add_assoc]

theorem le16_toNat (B : List Byte) (i : Nat) : (BitVec.ofNat 16 (le16 B i)).toNat = le16 B i :=
  Nat.mod_eq_of_lt (le16_lt B i)

theorem le32_toNat (B : List Byte) (i : Nat) : (BitVec.ofNat 32 (le32 B i)).toNat = le32 B i :=
  Nat.mod_eq_of_lt (le32_lt B i)

/-- Both bytes are 255 exactly at the sensor's error value (R267). -/
theorem le16_eq_irrSentinel_iff (B : List Byte) (i : Nat) :
    le16 B i = irrSentinel ↔ (B.getD i 0).toNat = 255 ∧ (B.getD (i + 1) 0).toNat = 255 := by
  have h0 := (B.getD i 0).isLt
  have h1 := (B.getD (i + 1) 0).isLt
  simp only [le16, irrSentinel]
  omega

/-- The temperature is negative exactly when its high byte has its top bit set (R12, R262). -/
theorem sext32_le16_toInt (B : List Byte) (i : Nat) :
    (sext32 (BitVec.ofNat 16 (le16 B i))).toInt =
      if (B.getD (i + 1) 0).toNat < 128 then (le16 B i : Int) else (le16 B i : Int) - 65536 := by
  have h0 := (B.getD i 0).isLt
  have sign : 2 * le16 B i < 2 ^ 16 ↔ (B.getD (i + 1) 0).toNat < 128 := by
    simp only [le16]
    omega
  rw [sext32, BitVec.toInt_signExtend_of_le (by decide), BitVec.toInt_eq_toNat_cond, le16_toNat]
  simp only [sign]
  rfl

/-- Settles O30: the size and the checksum decide which of the three outcomes it is, and the latched fields are the
numbers of their bytes. -/
theorem decodeOutcomes : Obligations.DecodeOutcomes := by
  intro s b sum
  have byte : ∀ i < 11, ((s.ptBytes 0 11).getD i 0).toNat = b i := fun i hi => by rw [ptBytes_getD s hi]
  have half : ∀ i < 10, le16 (s.ptBytes 0 11) i = b i + 256 * b (i + 1) := fun i hi => by
    rw [le16, byte i (by omega), byte (i + 1) (by omega)]
  have hsum : sum8 (s.ptBytes 0 11) 0 10 = sum % 256 := by
    rw [sum8_ten]
    simp only [byte, Nat.reduceLT, sum]
  refine ⟨fun hsize => exec_decode_of_decodeStage_eq (decodeStage_of_ptLen_ne hsize), fun hsize hne => ?_,
    fun hsize heq => ?_⟩
  · exact exec_decode_of_decodeStage_eq (decodeStage_of_sum8_ne hsize (by rwa [hsum, byte 10 (by decide)]))
  · refine ⟨_, exec_decode_of_decodeStage_eq (decodeStage_of_sum8_eq hsize (by rwa [hsum, byte 10 (by decide)])), ?_,
      ?_, ?_, ?_, ?_, ?_⟩
    · have sensor : (le16 (s.ptBytes 0 11) 0 == irrSentinel) = decide (b 0 = 255 ∧ b 1 = 255) := by
        rw [← byte 0 (by decide), ← byte 1 (by decide), ← decide_eq_decide.2 (le16_eq_irrSentinel_iff _ 0)]
        rfl
      rw [← sensor]
      rfl
    · exact (le16_toNat _ 0).trans (half 0 (by decide))
    · exact (le16_toNat _ 2).trans (half 2 (by decide))
    · refine (sext32_le16_toInt _ 4).trans ?_
      rw [half 4 (by decide), byte 5 (by decide)]
      push_cast
      rfl
    · refine (le32_toNat _ 6).trans ?_
      simp only [le32, byte, Nat.reduceLT, Nat.reduceAdd, Nat.reducePow]
    · exact byte 10 (by decide)

/-! The fields as the values encoded (R268) -/

theorem sum_toNat (B : List Byte) : B.sum.toNat = (B.map BitVec.toNat).sum % 256 := by
  induction B with
  | nil => rfl
  | cons b B ih => rw [List.sum_cons, BitVec.toNat_add, ih, List.map_cons, List.sum_cons, Nat.add_mod_mod]

/-- The checksum of the bytes `B` at the start of a sequence is their sum as bytes (R261). -/
theorem sum8_append (B C : List Byte) : sum8 (B ++ C) 0 B.length = B.sum.toNat := by
  have bytes : ((List.range B.length).map fun j => ((B ++ C).getD (0 + j) 0).toNat) = B.map BitVec.toNat := by
    conv_rhs => rw [← map_range_getD B, List.map_map]
    refine List.map_congr_left fun j hj => ?_
    rw [Nat.zero_add, List.getD_append _ _ _ _ (List.mem_range.1 hj)]
    rfl
  rw [sum8, bytes, sum_toNat]

/-- A half is `le16` of its bytes, low byte first. -/
theorem toNat_eq_bytes (v : Half) : (v.extractLsb' 0 8).toNat + 256 * (v.extractLsb' 8 8).toNat = v.toNat := by
  have hv := v.isLt
  simp only [BitVec.extractLsb'_toNat, Nat.shiftRight_eq_div_pow]
  omega

/-- Settles O31: the checksum read is the sum of the record's bytes, and each field put together from its bytes is the
value that was cut into them. -/
theorem recordDecodesToTheEncodedValues : Obligations.RecordDecodesToTheEncodedValues := by
  intro s irr batt temp ts csum record hsize hbytes
  have hlen : s.ptLen.toNat = 11 := congrArg BitVec.toNat hsize
  have hsum : sum8 (s.ptBytes 0 11) 0 10 = record.sum.toNat := hbytes ▸ sum8_append record [csum]
  have hcsum : (s.ptBytes 0 11).getD 10 0 = csum := by rw [hbytes]; rfl
  refine ⟨fun heq => ?_, fun hne => ?_⟩
  · have irrNat : le16 (s.ptBytes 0 11) 0 = irr.toNat := by rw [hbytes]; exact toNat_eq_bytes irr
    have battNat : le16 (s.ptBytes 0 11) 2 = batt.toNat := by rw [hbytes]; exact toNat_eq_bytes batt
    have tempNat : le16 (s.ptBytes 0 11) 4 = temp.toNat := by rw [hbytes]; exact toNat_eq_bytes temp
    have tsWord : BitVec.ofNat 32 (le32 (s.ptBytes 0 11) 6) = ts := by rw [hbytes]; exact wordOfLanes_lanes ts
    refine ⟨_, exec_decode_of_decodeStage_eq (decodeStage_of_sum8_eq hlen (by rw [hsum, hcsum, heq])), rfl, ?_, ?_, ?_,
      tsWord, hcsum, rfl, ?_⟩
    · simp [irrNat]
    · simp [battNat]
    · simp [tempNat, sext32]
    · simp [irrNat, ← BitVec.toNat_inj]
  · refine ⟨_, exec_decode_of_decodeStage_eq (decodeStage_of_sum8_ne hlen fun heq => hne ?_), rfl, rfl⟩
    rw [hsum, hcsum] at heq
    exact (BitVec.eq_of_toNat_eq heq).symm

end Sys2Proof.Machine

/-! The link state machine (43_link_fsm R280 to R297) -/

namespace Sys2Proof.Machine

/-! The schedule's numbers: no value of an admissible configuration is reduced modulo 2^32 (R10) -/

theorem guardDeadline_toNat (cfg : Config) (now : Word) :
    (guardDeadline cfg now).toNat = (now.toNat + cfg.guardWindow) % 2 ^ 32 :=
  BitVec.toNat_ofNat _ _

theorem backoffFloor_toNat {cfg : Config} (hadm : cfg.Admissible) :
    (BitVec.ofNat 32 cfg.backoffFloor).toNat = cfg.backoffFloor := by
  have hceil := backoffCeil_lt hadm
  obtain ⟨-, hfloor, -, -⟩ := hadm
  exact Nat.mod_eq_of_lt (hfloor.trans_lt hceil)

/-- An interval with its jitter is at most the ceiling and a tenth of it (R296). -/
theorem nextInterval_add_jitter_le {cfg : Config} (hadm : cfg.Admissible) (b r : Nat) :
    nextInterval cfg b + jitter (nextInterval cfg b) r ≤ cfg.backoffCeil + cfg.backoffCeil / 10 := by
  have hb := (nextInterval_range cfg hadm b).2
  exact Nat.add_le_add hb ((jitter_le _ r).trans (Nat.div_le_div_right hb))

theorem nextInterval_add_jitter_lt {cfg : Config} (hadm : cfg.Admissible) (b r : Nat) :
    nextInterval cfg b + jitter (nextInterval cfg b) r < 2 ^ 32 := by
  have hle := nextInterval_add_jitter_le hadm b r
  obtain ⟨-, -, hsum, -⟩ := hadm
  exact hle.trans_lt hsum

/-- From "unset" the step is to the floor (R283). -/
theorem nextInterval_zero {cfg : Config} (hadm : cfg.Admissible) : nextInterval cfg 0 = cfg.backoffFloor := by
  obtain ⟨-, hfloor, -, -⟩ := hadm
  rw [nextInterval, Nat.mul_zero, Nat.zero_max, min_eq_left hfloor]

/-- The step doubles the floor's `n`-th doubling and keeps the ceiling (R283, R296). -/
theorem nextInterval_min_doubling {cfg : Config} (hadm : cfg.Admissible) (n : Nat) :
    nextInterval cfg (min (cfg.backoffFloor * 2 ^ n) cfg.backoffCeil) =
      min (cfg.backoffFloor * 2 ^ (n + 1)) cfg.backoffCeil := by
  obtain ⟨-, hfloor, -, -⟩ := hadm
  have hn : cfg.backoffFloor ≤ cfg.backoffFloor * 2 ^ n := Nat.le_mul_of_pos_right _ (Nat.two_pow_pos n)
  rw [nextInterval, pow_succ, ← Nat.mul_assoc]
  omega

theorem nextInterval_toNat {cfg : Config} (hadm : cfg.Admissible) (b : Nat) :
    (BitVec.ofNat 32 (nextInterval cfg b)).toNat = nextInterval cfg b :=
  Nat.mod_eq_of_lt ((Nat.le_add_right _ _).trans_lt (nextInterval_add_jitter_lt hadm b 0))

theorem jitter_toNat {cfg : Config} (hadm : cfg.Admissible) (b r : Nat) :
    (BitVec.ofNat 32 (jitter (nextInterval cfg b) r)).toNat = jitter (nextInterval cfg b) r :=
  Nat.mod_eq_of_lt ((Nat.le_add_left _ _).trans_lt (nextInterval_add_jitter_lt hadm b r))

/-! LINK_TICK -/

theorem exec_linkTick_of_connected {s : State} (hlink : s.link = .connected) :
    exec .linkTick s = .next { s with
      lastNow := s.env.time, attempt := .noAttempt, result := .ok
      linkNext := if s.linkNext.toNat < (guardDeadline s.cfg s.env.time).toNat then guardDeadline s.cfg s.env.time
        else s.linkNext } :=
  if_pos hlink

theorem exec_linkTick_of_early {s : State} (hlink : s.link ≠ .connected)
    (hearly : s.env.time.toNat < s.linkNext.toNat) :
    exec .linkTick s = .next { s with lastNow := s.env.time, attempt := .noAttempt, result := .ok } :=
  (if_neg hlink).trans (if_neg (not_le.2 hearly))

theorem exec_linkTick_of_due {s : State} (hlink : s.link ≠ .connected) (hdue : s.linkNext.toNat ≤ s.env.time.toNat) :
    exec .linkTick s = .next { s with
      lastNow := s.env.time, result := .ok, link := .connecting, hadBegun := true
      attempt := if s.hadBegun then .reconnectAttempt else .beginAttempt
      netOut := s.netOut ++ [if s.hadBegun then .reconnect else .beginConnect]
      linkBackoff := BitVec.ofNat 32 (nextInterval s.cfg s.linkBackoff.toNat)
      linkJitter := BitVec.ofNat 32 (jitter (nextInterval s.cfg s.linkBackoff.toNat) s.env.rand.toNat)
      linkNext := BitVec.ofNat 32 (s.env.time.toNat + nextInterval s.cfg s.linkBackoff.toNat +
        jitter (nextInterval s.cfg s.linkBackoff.toNat) s.env.rand.toNat) } :=
  (if_neg hlink).trans (if_pos hdue)

/-- Settles O32: LINK and the deadline decide which of the three outcomes it is, and an attempt's interval and jitter fit
their registers. -/
theorem linkTickOutcomes : Obligations.LinkTickOutcomes := by
  intro s hadm now b j
  refine ⟨fun hlink => ⟨_, exec_linkTick_of_connected hlink, rfl, ?_⟩, exec_linkTick_of_early, fun hlink hdue =>
    ⟨_, exec_linkTick_of_due hlink hdue, rfl, nextInterval_toNat hadm _, jitter_toNat hadm _ _,
      BitVec.toNat_ofNat _ _, ?_⟩⟩
  · rw [← guardDeadline_toNat, max_def_lt]
    exact apply_ite BitVec.toNat _ _ _
  · have hle : b + j ≤ s.cfg.backoffCeil + s.cfg.backoffCeil / 10 := nextInterval_add_jitter_le hadm _ _
    omega

/-- Settles O35: the interval from "unset" is the floor, and at TIME 0 the new deadline is the interval and its jitter. -/
theorem firstTickLaw : Obligations.FirstTickLaw := by
  intro s hadm hlink hbackoff hnext htime
  have hinterval : nextInterval s.cfg s.linkBackoff.toNat = s.cfg.backoffFloor := by
    rw [hbackoff]; exact nextInterval_zero hadm
  have hnow : s.env.time.toNat = 0 := congrArg BitVec.toNat htime
  have hfits := nextInterval_add_jitter_lt hadm s.linkBackoff.toNat s.env.rand.toNat
  have hjitter := jitter_toNat hadm s.linkBackoff.toNat s.env.rand.toNat
  rw [hinterval] at hfits hjitter
  refine ⟨_, exec_linkTick_of_due (by rw [hlink]; decide) (by rw [hnext, htime]), List.length_append, rfl, ?_, ?_⟩
  · simp only [hinterval, hjitter, hnow]
    rw [BitVec.toNat_ofNat, Nat.zero_add, Nat.mod_eq_of_lt hfits]
  · simp only [hinterval, hjitter]
    exact jitter_le _ _

/-! Ticks made on their deadlines (R296, R297) -/

/-- One such tick takes one backoff step and emits one event. -/
theorem retryTick_effect {s : State} (hadm : s.cfg.Admissible) (hlink : s.link ≠ .connected) (r : Word) :
    (retryTick s r).cfg = s.cfg ∧ (retryTick s r).link = .connecting ∧
      (retryTick s r).linkBackoff.toNat = nextInterval s.cfg s.linkBackoff.toNat ∧
      (retryTick s r).netOut.length = s.netOut.length + 1 := by
  have hexec := exec_linkTick_of_due (s := { s with env := { s.env with time := s.linkNext, rand := r } }) hlink le_rfl
  rw [retryTick, hexec]
  exact ⟨rfl, rfl, nextInterval_toNat hadm _, List.length_append⟩

/-- After `n + 1` such ticks, by induction on the last one: the interval is the `n`-th doubling of the floor, up to the
ceiling, and `n + 1` events are out. -/
theorem foldl_retryTick_effect {s : State} (hadm : s.cfg.Admissible) (hlink : s.link ≠ .connected)
    (hbackoff : s.linkBackoff = 0) (rs : List Word) (r : Word) :
    ((rs ++ [r]).foldl retryTick s).cfg = s.cfg ∧ ((rs ++ [r]).foldl retryTick s).link = .connecting ∧
      ((rs ++ [r]).foldl retryTick s).linkBackoff.toNat =
        min (s.cfg.backoffFloor * 2 ^ rs.length) s.cfg.backoffCeil ∧
      ((rs ++ [r]).foldl retryTick s).netOut.length = s.netOut.length + rs.length + 1 := by
  induction rs using List.reverseRecOn generalizing r with
  | nil =>
    obtain ⟨hcfg, hlink', hnext, hout⟩ := retryTick_effect hadm hlink r
    refine ⟨hcfg, hlink', hnext.trans ?_, hout⟩
    rw [hbackoff, List.length_nil, pow_zero, Nat.mul_one, min_eq_left hadm.2.1]
    exact nextInterval_zero hadm
  | append_singleton rs q ih =>
    rw [List.foldl_append, List.foldl_cons, List.foldl_nil]
    obtain ⟨hcfg, hconnecting, hdoubled, hlen⟩ := ih q
    obtain ⟨hcfg', hlink', hnext, hout⟩ := retryTick_effect (hcfg ▸ hadm) (by rw [hconnecting]; decide) r
    refine ⟨hcfg'.trans hcfg, hlink', hnext.trans ?_, hout.trans ?_⟩
    · rw [hcfg, hdoubled, List.length_append]
      exact nextInterval_min_doubling hadm _
    · rw [hlen, List.length_append]
      rfl

/-- Settles O36, by induction on the ticks: the first steps to the floor, each further one doubles up to the ceiling. -/
theorem repeatedTicksDoubleUpToTheCeiling : Obligations.RepeatedTicksDoubleUpToTheCeiling := by
  intro s rs r hadm hlink hbackoff t
  obtain ⟨-, hconnecting, hdoubled, hlen⟩ := foldl_retryTick_effect hadm hlink hbackoff rs r
  exact ⟨hdoubled, hdoubled.trans_le (min_le_right _ _), hconnecting, hlen⟩

/-! LINK_EVENT and FORCE_RECONNECT -/

theorem exec_linkEvent_up_of_connected {s : State} (hlink : s.link = .connected) :
    exec (.linkEvent true) s = .next { s with lastNow := s.env.time } :=
  if_pos hlink

theorem exec_linkEvent_up_of_not_connected {s : State} (hlink : s.link ≠ .connected) :
    exec (.linkEvent true) s = .next { s with
      lastNow := s.env.time, link := .connected, linkBackoff := BitVec.ofNat 32 s.cfg.backoffFloor
      linkNext := guardDeadline s.cfg s.env.time } :=
  if_neg hlink

theorem exec_linkEvent_down_of_connected {s : State} (hlink : s.link = .connected) :
    exec (.linkEvent false) s = .next { s with
      lastNow := s.env.time, link := .disconnected
      linkBackoff := if s.linkBackoff = 0 then BitVec.ofNat 32 s.cfg.backoffFloor else s.linkBackoff } :=
  if_pos hlink

theorem exec_linkEvent_down_of_not_connected {s : State} (hlink : s.link ≠ .connected) :
    exec (.linkEvent false) s = .next { s with lastNow := s.env.time, link := .disconnected } :=
  if_neg hlink

/-- Settles O33: UP or DOWN and LINK decide which of the four outcomes it is, and the floor fits LINK_BACKOFF. -/
theorem linkEventOutcomes : Obligations.LinkEventOutcomes := by
  intro s hadm
  refine ⟨exec_linkEvent_up_of_connected, fun hlink =>
    ⟨_, exec_linkEvent_up_of_not_connected hlink, rfl, backoffFloor_toNat hadm, guardDeadline_toNat _ _⟩, fun hlink =>
    ⟨_, exec_linkEvent_down_of_connected hlink, rfl, ?_⟩, exec_linkEvent_down_of_not_connected⟩
  rw [apply_ite BitVec.toNat, backoffFloor_toNat hadm]

/-- Settles O34: the command has one outcome. -/
theorem forceReconnectClearsTheSchedule : Obligations.ForceReconnectClearsTheSchedule := fun _ => rfl

/-! Which steps change LINK (R280) -/

@[simp] theorem writeReg_link (r : Reg) (v : Word) (s : State) : (writeReg r v s).link = s.link := by
  cases r <;> simp [writeReg]

/-- A command that changes LINK emits an event, or it is a LINK_EVENT, which never makes the link Connecting. -/
theorem exec_link_cases {i : Instr} {s t : State} (h : exec i s = .next t) :
    t.link = s.link ∨ t.netOut ≠ s.netOut ∨ (i.port = .network ∧ t.link ≠ .connecting) := by
  cases i with
  | nop | forceReconnect | radioPost => cases h; exact .inl rfl
  | decode => cases h; rw [decodeStage_frame]; exact .inl rfl
  | keyLoad => obtain ⟨-, rfl⟩ | ⟨-, rfl⟩ := execKeyLoad_cases s t h <;> exact .inl rfl
  | aesDecrypt off len =>
    obtain ⟨-, rfl⟩ | ⟨-, -, -, rfl⟩ := execAesDecrypt_cases off len s t h
    · exact .inl rfl
    · rw [cbcCore_frame]; exact .inl rfl
  | mbxTake => obtain ⟨-, rfl⟩ | ⟨-, rfl⟩ := execMbxTake_cases s t h <;> exact .inl rfl
  | linkTick =>
    obtain ⟨-, n, rfl⟩ | ⟨-, -, rfl⟩ | ⟨-, -, rfl⟩ := execLinkTick_cases s t h
    · exact .inl rfl
    · exact .inl rfl
    · exact .inr (.inl (by simp [attemptLink]))
  | processFrame =>
    obtain ⟨-, rfl⟩ | ⟨-, -, rfl⟩ | ⟨-, -, r, rfl, rfl⟩ := execProcessFrame_cases s t h
    · exact .inl rfl
    · exact .inl rfl
    · rw [runStages_frame]; exact .inl rfl
  | linkEvent up =>
    refine .inr (.inr ⟨rfl, ?_⟩)
    rw [(execLinkEvent_frame up s t h).2]
    cases up <;> decide

/-- A step that changes LINK emits an event, or it serves the network port and does not enter Connecting. -/
theorem step_link_cases {s t : State} (h : step s = .next t) (hne : t.link ≠ s.link) :
    t.netOut ≠ s.netOut ∨ (s.nextPort = some .network ∧ t.link ≠ .connecting) := by
  obtain e | ⟨-, ⟨r, v, e⟩ | e⟩ | ⟨i, hport, hexec⟩ := step_port_cases s t h
  · exact absurd (by rw [e]) hne
  · exact absurd (by rw [e, writeReg_link]) hne
  · exact absurd (by rw [e, finish_link]) hne
  · obtain hsame | hevent | ⟨hnet, hlink⟩ := exec_link_cases hexec
    · exact absurd hsame hne
    · exact .inl hevent
    · exact .inr ⟨by rw [hport, hnet], hlink⟩

/-- Settles O38: the one step that emits an event is the LINK_TICK of `attemptsComeOnlyFromDueTicks`, from not Connected
to Connecting; every other change of LINK is the network port's. -/
theorem linkTransitions : Obligations.LinkTransitions := by
  refine ⟨rfl, fun s t hstep hne => ?_⟩
  obtain hevent | ⟨hport, hlink⟩ := step_link_cases hstep hne
  · obtain hsame | ⟨hword, hfrom, -, hout, hto, -⟩ := attemptsComeOnlyFromDueTicks s t hstep
    · exact absurd hsame hevent
    refine ⟨fun h => ?_, fun _ => ⟨hword, by rw [hout, List.length_append]; rfl⟩, fun h => ?_⟩
    · rw [hto] at h
      exact absurd h (not_or.2 ⟨hfrom, by decide⟩)
    · cases hto.symm.trans h
  · exact ⟨fun _ => hport, fun h => absurd h hlink, fun _ => hport⟩

end Sys2Proof.Machine

/-! The frame pipeline and NOP (44_pipeline R311 to R319) -/

namespace Sys2Proof.Machine

/-- Settles O42: the command has one outcome. -/
theorem nopOnlyFinishes : Obligations.NopOnlyFinishes := fun _ => rfl

/-! The framing checks (R312) -/

theorem exec_processFrame_of_short {s : State} (hshort : s.frameLen.toNat < 32) :
    exec .processFrame s = .next { s with publish := false, result := .frameShort } :=
  if_pos hshort

theorem exec_processFrame_of_misaligned {s : State} (hlen : 32 ≤ s.frameLen.toNat)
    (halign : (s.frameLen.toNat - 16) % 16 ≠ 0) :
    exec .processFrame s = .next { s with publish := false, result := .frameAlign } :=
  (if_neg (Nat.not_lt.2 hlen)).trans (if_pos halign)

/-- Settles O39: the two checks look at FRAME_LEN alone, and the lengths they pass are a matter of arithmetic. -/
theorem framingIsCheckedFirst : Obligations.FramingIsCheckedFirst := by
  refine ⟨fun s => ⟨exec_processFrame_of_short, exec_processFrame_of_misaligned⟩, fun L hL => ⟨?_, fun h => ?_⟩⟩
  · simp only [List.mem_cons, List.not_mem_nil, or_false]
    omega
  · omega

/-! The publish gate (R315) -/

/-- The stages set PUBLISH when all of them pass and the link is Connected, and leave it clear otherwise. -/
theorem runStages_publish_iff {s : State} (hclear : s.publish = false) (iv : Block) (ct : List Byte) :
    (runStages iv ct s).2.publish = true ↔ (runStages iv ct s).1 = .ok ∧ s.link = .connected := by
  have hcore : (cbcCore iv ct s).2.publish = false := by rw [cbcCore_frame]; exact hclear
  have hdec : (decodeStage (cbcCore iv ct s).2).2.publish = false := by rw [decodeStage_frame]; exact hcore
  have hlink : (decodeStage (cbcCore iv ct s).2).2.link = s.link := by rw [decodeStage_frame, cbcCore_frame]
  obtain ⟨hcode, e⟩ | ⟨-, hcode, e⟩ | ⟨-, -, e⟩ := runStages_cases iv ct s <;> rw [e]
  · simp [hcore, hcode]
  · simp [hdec, hcode]
  · simp [hlink]

/-- PROCESS_FRAME apart, no command touches PUBLISH. -/
theorem exec_publish {i : Instr} {s t : State} (hi : i ≠ .processFrame) (h : exec i s = .next t) :
    t.publish = s.publish := by
  cases i with
  | processFrame => exact absurd rfl hi
  | nop | forceReconnect | radioPost => cases h; rfl
  | keyLoad => obtain ⟨-, rfl⟩ | ⟨-, rfl⟩ := execKeyLoad_cases s t h <;> rfl
  | aesDecrypt off len =>
    obtain ⟨-, rfl⟩ | ⟨-, -, -, rfl⟩ := execAesDecrypt_cases off len s t h
    · rfl
    · rw [cbcCore_frame]; rfl
  | decode => cases h; rw [decodeStage_frame]; rfl
  | mbxTake => obtain ⟨-, rfl⟩ | ⟨-, rfl⟩ := execMbxTake_cases s t h <;> rfl
  | linkTick => obtain ⟨-, n, rfl⟩ | ⟨-, -, rfl⟩ | ⟨-, -, rfl⟩ := execLinkTick_cases s t h <;> rfl
  | linkEvent up => rw [(execLinkEvent_frame up s t h).1]

/-- Settles O41: a framing error finishes with its own code and PUBLISH clear, and past the framing checks the gate is
that of `runStages_publish_iff`. -/
theorem publishGate : Obligations.PublishGate := by
  refine ⟨fun s t h => ?_, fun i s t hi h => exec_publish hi h⟩
  obtain ⟨-, rfl⟩ | ⟨-, -, rfl⟩ | ⟨-, -, r, rfl, rfl⟩ := execProcessFrame_cases s t h
  · simp
  · simp
  · exact runStages_publish_iff rfl _ _

/-! POLL (R319) -/

/-- LINK_TICK leaves the buffers. -/
theorem exec_linkTick_mem {s t : State} (h : exec .linkTick s = .next t) : t.mem = s.mem := by
  obtain ⟨-, n, rfl⟩ | ⟨-, -, rfl⟩ | ⟨-, -, rfl⟩ := execLinkTick_cases s t h <;> rfl

/-- Settles O43: the tick posts no frame (`exec_noPost`), so the take finds none and sets FRAME_LEN to 0, which is short. -/
theorem pollOfAnEmptyMailbox : Obligations.PollOfAnEmptyMailbox := by
  intro s hempty
  obtain ⟨t1, htick⟩ := exec_completes .linkTick s
  obtain ⟨-, -, -, -, hready⟩ := exec_noPost (by decide) htick
  have hempty1 : t1.mbxReady = false := Bool.eq_false_iff.2 fun h => ne_true_of_eq_false hempty (hready h)
  have hcount : t1.decCount = s.decCount := exec_decCount (i := .linkTick) nofun nofun htick
  refine ⟨t1, _, _, htick, exec_mbxTake_of_not_ready hempty1, exec_processFrame_of_short (Nat.zero_lt_succ 31),
    rfl, rfl, rfl, rfl, hcount, fun a => ?_⟩
  rw [← exec_linkTick_mem htick]

/-! The stages past the framing checks (R311, R313) -/

/-- What the core hands to the decode stage when the padding passes: the plaintext in PT_BUF, its length in PT_LEN, one
run counted (R235, R236), and PUBLISH clear (R311). -/
def State.withPlaintext (Q : List Byte) (s : State) : State :=
  { s with
    publish := false
    decCount := s.decCount + 1
    mem := s.mem.writeBytes ptBase (fill128 Q Q.length)
    ptLen := BitVec.ofNat 8 Q.length }

theorem cbcCore_withPlaintext {s : State} {iv : Block} {ct Q : List Byte} (hk : s.keyValid = true)
    (hP : unpad (cbcDecrypt s.key (ct.length / 16) iv ct) = some Q) :
    cbcCore iv ct { s with publish := false } = (.ok, s.withPlaintext Q) :=
  cbcCore_of_unpad_some (s := { s with publish := false }) hk hP

theorem withPlaintext_ptLen {Q : List Byte} (hQ : Q.length ≤ 128) (s : State) :
    (s.withPlaintext Q).ptLen.toNat = Q.length := by
  simp only [State.withPlaintext, BitVec.toNat_ofNat]
  omega

/-- PT_BUF reads back as the plaintext stored in it. -/
theorem withPlaintext_ptBytes {Q : List Byte} (hQ : Q.length ≤ 128) (s : State) :
    (s.withPlaintext Q).ptBytes 0 Q.length = Q :=
  (ptBytes_eq_map_getD hQ (read_writeBytes_plaintext s.mem Q)).trans (map_range_getD Q)

theorem runStages_of_cbcCore_failed {iv : Block} {ct : List Byte} {s x : State} {code : ResultCode}
    (hcore : cbcCore iv ct s = (code, x)) (hcode : code ≠ .ok) : runStages iv ct s = (code, x) := by
  simp only [runStages, hcore, hcode, if_false]

theorem runStages_of_decodeStage_failed {iv : Block} {ct : List Byte} {s x d : State} {code : ResultCode}
    (hcore : cbcCore iv ct s = (.ok, x)) (hdec : decodeStage x = (code, d)) (hcode : code ≠ .ok) :
    runStages iv ct s = (code, d) := by
  simp only [runStages, hcore, hdec, hcode, if_true, if_false]

theorem runStages_of_decodeStage_ok {iv : Block} {ct : List Byte} {s x d : State}
    (hcore : cbcCore iv ct s = (.ok, x)) (hdec : decodeStage x = (.ok, d)) :
    runStages iv ct s = (.ok, { d with publish := decide (d.link = .connected) }) := by
  simp only [runStages, hcore, hdec, if_true]

/-- PROCESS_FRAME finishes a frame of a good length with the code and the state the stages answer. -/
theorem exec_processFrame_of_runStages {s t : State} {code : ResultCode} (hshort : 32 ≤ s.frameLen.toNat)
    (halign : (s.frameLen.toNat - 16) % 16 = 0)
    (hstages : runStages (blockOfBytes (s.frameBytes 0 16)) (s.frameBytes 16 (s.frameLen.toNat - 16))
      { s with publish := false } = (code, t)) :
    exec .processFrame s = .next (t.finish code) := by
  obtain ⟨r, hr, hrun⟩ := exec_processFrame_of_framed hshort halign
  rw [hrun, hr, hstages]

/-- Settles O40: the core fails without a key or on bad padding; past it the decode stage reads back the plaintext the
core stored, and its three answers are the frame's. -/
theorem processFrameStages : Obligations.ProcessFrameStages := by
  intro s hshort hlong halign ct P
  have finishes {t : State} {code : ResultCode} := exec_processFrame_of_runStages (t := t) (code := code) hshort halign
  refine ⟨fun hk => ?_, fun hk hP => ?_, fun Q hk hP => ?_⟩
  · have hcore := cbcCore_of_not_keyValid (s := { s with publish := false }) hk
    exact finishes (runStages_of_cbcCore_failed (hcore _ _) nofun)
  · exact finishes (runStages_of_cbcCore_failed (cbcCore_of_unpad_none hk hP) nofun)
  have hQ : Q.length ≤ 128 := by
    have hle := length_unpad_cbcDecrypt_le hP
    rw [show ct.length = s.frameLen.toNat - 16 from readBytes_length _ _ _] at hle
    omega
  have hcore := cbcCore_withPlaintext hk hP
  have hptLen := withPlaintext_ptLen hQ s
  have hrecord (hsize : Q.length = 11) : (s.withPlaintext Q).ptBytes 0 11 = Q := hsize ▸ withPlaintext_ptBytes hQ s
  obtain ⟨t, hrun, hcode, htLen, hmem⟩ := exec_processFrame_of_unpad_some hshort halign hk rfl hP
  have only {t' : State} (h : exec .processFrame s = .next t') : t = t' := Host.Outcome.next.inj (hrun.symm.trans h)
  refine ⟨t, hrun, ?_, htLen, hmem, fun hsize => ?_, fun hsize hsum => ?_, fun hsize hsum => ?_⟩
  · rw [decCountCountsTheCoreRuns.2.1 s t hrun]
    obtain e | e | e := hcode <;> rw [e] <;> rfl
  · rw [only (finishes (runStages_of_decodeStage_failed hcore (decodeStage_of_ptLen_ne (by rwa [hptLen])) nofun))]
    rfl
  · have hdec := decodeStage_of_sum8_ne (hptLen.trans hsize) (by rwa [hrecord hsize])
    rw [only (finishes (runStages_of_decodeStage_failed hcore hdec nofun))]
    rfl
  · have hdec := decodeStage_of_sum8_eq (hptLen.trans hsize) (by rwa [hrecord hsize])
    rw [hrecord hsize] at hdec
    rw [only (finishes (runStages_of_decodeStage_ok hcore hdec))]
    rfl

end Sys2Proof.Machine

/-! The block has no halted state (60_exceptions R413) -/

namespace Sys2Proof.Machine

/-- An illegal word finishes ILLEGAL_CMD, so a CMD write answers a next state whatever the word (R147). -/
theorem issueHost_completes (w : Word) (s : State) : ∃ t, issueHost w s = .next t := by
  unfold issueHost
  split
  · exact exec_completes _ s
  · exact ⟨_, rfl⟩

theorem issueRadio_completes (w : Word) (s : State) : ∃ t, issueRadio w s = .next t := by
  unfold issueRadio
  split
  · exact exec_completes _ s
  · exact ⟨_, rfl⟩

theorem issueNetwork_completes (w : Word) (s : State) : ∃ t, issueNetwork w s = .next t := by
  unfold issueNetwork
  split
  · exact exec_completes _ s
  · exact ⟨_, rfl⟩

/-- A legal transaction reaches a register, so it raises no bus error (R101, R105). -/
theorem hostAccess_completes {a : BusAccess} {s : State} (h : a.Legal s.cfg) : ∃ t, hostAccess a s = .next t := by
  obtain ⟨r, hr⟩ := h
  cases a with
  | read addr width =>
    replace hr : busTarget s.cfg addr width = .ok r := hr
    simp only [hostAccess, hr]
    exact ⟨_, rfl⟩
  | write addr width v =>
    replace hr : busTarget s.cfg addr width = .ok r := hr
    simp only [hostAccess, hr]
    split
    · exact issueHost_completes v s
    · exact ⟨_, rfl⟩

theorem servePort_completes (p : Port) {s : State} (h : ∀ a ∈ s.env.host, a.Legal s.cfg) :
    ∃ t, servePort p s = .next t := by
  cases p with
  | host =>
    cases ha : s.env.host with
    | nil => exact ⟨s, by simp only [servePort, ha]⟩
    | cons a as =>
      have hlegal : a.Legal s.cfg := h a (ha ▸ List.mem_cons_self)
      simp only [servePort, ha]
      exact hostAccess_completes (s := s.popHost as) hlegal
  | radio =>
    cases hq : s.env.radio with
    | nil => exact ⟨s, by simp only [servePort, hq]⟩
    | cons q qs =>
      simp only [servePort, hq]
      exact issueRadio_completes _ _
  | network =>
    cases hw : s.env.network with
    | nil => exact ⟨s, by simp only [servePort, hw]⟩
    | cons w ws =>
      simp only [servePort, hw]
      exact issueNetwork_completes _ _

theorem State.Served.step_completes {s : State} (h : s.Served) : ∃ t, step s = .next t := by
  obtain ⟨hadm, hlegal⟩ := h
  cases hs : s.env.schedule with
  | nil => exact ⟨s, step_eq_self hadm hs⟩
  | cons turn rest =>
    rw [step_eq_servePort hadm hs]
    exact servePort_completes turn.port (s := s.takeTurn turn rest) hlegal

/-- A step takes at most the first transaction off the host's list and adds none. -/
theorem step_host_suffix {s t : State} (h : step s = .next t) : t.env.host <:+ s.env.host := by
  obtain ⟨-, rfl | ⟨turn, rest, -, rfl | ⟨a, as, -, ha, host⟩ | ⟨q, qs, -, -, radio⟩ | ⟨w, ws, -, -, network⟩⟩⟩ :=
    step_effects s t h
  · exact List.suffix_rfl
  · exact List.suffix_rfl
  · have hhost : t.env.host = as := by
      obtain ⟨v, rfl⟩ | ⟨r, v, rfl⟩ | ⟨v, -, ⟨i, -, hexec⟩ | rfl⟩ := host
      · rfl
      · rw [(writeReg_env r v _).1]; rfl
      · rw [(exec_env i _ t hexec).1]; rfl
      · rfl
    rw [hhost, ha]
    exact List.suffix_cons a as
  · obtain ⟨n, hexec⟩ | rfl := radio
    · rw [(exec_env _ _ t hexec).1]; exact List.suffix_rfl
    · exact List.suffix_rfl
  · obtain ⟨up, hexec⟩ | rfl := network
    · rw [(exec_env _ _ t hexec).1]; exact List.suffix_rfl
    · exact List.suffix_rfl

/-- The environment's duty is kept: a step leaves the configuration and adds no transaction. -/
theorem State.Served.step {s t : State} (h : s.Served) (hstep : step s = .next t) : t.Served := by
  obtain ⟨hadm, hlegal⟩ := h
  rw [State.Served, step_cfg s t hstep]
  exact ⟨hadm, fun a ha => hlegal a ((step_host_suffix hstep).subset ha)⟩

/-- A run whose first step answers a next state goes on from there. -/
theorem run_succ_of_step {M : Host.Core} {s t : M.State} (h : M.step s = .next t) (k : Nat) :
    M.run (k + 1) s = M.run k t := by
  simp only [Host.Core.run, h]

/-- Settles O47, by induction on the number of steps: a served state has a next state, and that is served again. -/
theorem noInputStopsTheBlock : Obligations.NoInputStopsTheBlock := by
  intro s hs k
  induction k generalizing s with
  | zero => exact ⟨s, rfl⟩
  | succ k ih =>
    obtain ⟨t, hstep⟩ := hs.step_completes
    obtain ⟨u, hrun⟩ := ih t (hs.step hstep)
    exact ⟨u, (run_succ_of_step (M := core) hstep k).trans hrun⟩

/-! What the network port writes (60_exceptions R425) -/

/-- The network port's one command writes the link's four elements and nothing else (R289 to R292). -/
theorem exec_frame_of_port_network {i : Instr} {s t : State} (hi : i.port = .network) (h : exec i s = .next t) :
    t = { s with link := t.link, linkBackoff := t.linkBackoff, linkNext := t.linkNext, lastNow := t.lastNow } := by
  cases i with
  | linkEvent up => rw [(execLinkEvent_frame up s t h).1]
  | _ => cases hi

/-- Settles O50: the command a network turn runs is the network port's own, and a turn that runs none leaves the block. -/
theorem networkPortWritesOnlyTheLink : Obligations.NetworkPortWritesOnlyTheLink := by
  intro s t hp hstep
  obtain e | ⟨hhost, -⟩ | ⟨i, hi, hexec⟩ := step_port_cases s t hstep
  · rw [e]
  · cases hp.symm.trans hhost
  · exact exec_frame_of_port_network (Option.some.inj (hi.symm.trans hp)) hexec

end Sys2Proof.Machine
